-- ==== Sys2Proof/Word.lean ====
section
/-! DEFINITION. The word types of the block, one per width the spec gives (00_scope.md R8, R10). -/

namespace Sys2Proof

/-- A host-visible register or a CMD byte: REG_W = 8 bits (R8). -/
abbrev Byte := BitVec 8

/-- A register address: ADDR_W = 3 bits (R8). -/
abbrev Addr := BitVec 3

/-- The phase timer `tmr`: TMR_W = 10 bits (R8, R45). -/
abbrev Timer := BitVec 10

/-- The presence counter `cnt` and PCNT: CNT_W = 9 bits (R8, R46). -/
abbrev Count := BitVec 9

/-- The read-duration counter `dur` and RDUR: DUR_W = 8 bits (R8, R47). -/
abbrev Duration := BitVec 8

/-- A command opcode, OPC of CMD8: 3 bits (R100). -/
abbrev Opcode := BitVec 3

/-- A bit index inside a byte, `idx`: 3 bits (R48). -/
abbrev BitIndex := BitVec 3

end Sys2Proof
end

