-- ==== Sys2Proof/Config.lean ====
section
/-! DEFINITION. What an implementation fixes (00_scope.md R7, R8) and the values the spec leaves free
(93_implementation_defined.md U1, U2, U8 to U11). -/

namespace Sys2Proof

/-- When a read command writes RDUR. The spec's rules disagree on it and 90_conflicts.md does not name the point, so it
is a parameter (log 22). Only a host read of RDUR while a read command runs can tell the two apart. -/
inductive RdurTime where
  /-- At the tick that ends a measurement, in every slot: the pseudocode of R176 and R202. -/
  | atMeasurement
  /-- In the last tick of the command, so that RDUR shows its old value while the command runs: R149, R306. -/
  | atCommandEnd
  deriving DecidableEq, Repr

/-- The timing parameters of R7 as one record, in ticks, with `rdurTime`, which is the model's own (log 22). The defaults
are the source's literals (U12); R9's constraints are `Params.ok` in WellFormed.lean. -/
structure Params where
  /-- T_RSTL: reset low time. -/
  tRstl : Nat := 480
  /-- T_PDW: presence sampling window. -/
  tPdw : Nat := 500
  /-- P_MIN: least low-tick count that is a presence. -/
  pMin : Nat := 60
  /-- P_MAX: greatest low-tick count that is a presence. -/
  pMax : Nat := 240
  /-- T_W1L: write-1 low time. -/
  tW1l : Nat := 6
  /-- T_W0L: write-0 low time. -/
  tW0l : Nat := 61
  /-- T_SLOT: nominal write slot length. -/
  tSlot : Nat := 60
  /-- T_REC: recovery time after a write slot. -/
  tRec : Nat := 1
  /-- T_RDL: read-slot initiating low time. -/
  tRdl : Nat := 2
  /-- T_RTH: read classification threshold. -/
  tRth : Nat := 15
  /-- T_RP1: read pad base when the bit is 1. -/
  tRp1 : Nat := 56
  /-- T_RP0: read pad base when the bit is 0. -/
  tRp0 : Nat := 51
  /-- T_SETTLE: the host's wait after enabling the pull-up; an obligation of the host, which the block
  does not enforce (R307). -/
  tSettle : Nat := 50
  /-- When a read command writes RDUR. DESIGN CHOICE of the default: the arms, R176 and R202, and R43 (log 22). -/
  rdurTime : RdurTime := .atMeasurement
  deriving DecidableEq, Repr

/-- The parameters with R7's values, and RDUR written by the arm of R176 (log 22). -/
def Params.default : Params := {}

/-- TMR_W (R8). -/
def Config.tmrWidth : Nat := 10

/-- CNT_W (R8). -/
def Config.cntWidth : Nat := 9

/-- D_MAX = 2^DUR_W - 1 (R8). -/
def Config.durMax : Nat := 2 ^ 8 - 1

/-- The n-th free value of a DATA read while busy (R77, U1): nothing constrains it (log 3). -/
opaque Config.dataWhileBusy : Nat → Byte

/-- The n-th free line level of the bus environment (R143, U2), `true` for high: nothing constrains it
(log 2). Used for a tick whose level the event list does not give. -/
opaque Config.envLevel : Nat → Bool

/-- CLK_DIV, core clock cycles per tick (R8, U8). OPEN; no tick-level rule reads it (log 14). -/
opaque Config.clkDiv : Nat

/-- T_TICK_TOL, the permitted error of the tick period (R8, R310, U9), in the platform's own unit. OPEN; no
rule reads it (log 14). -/
opaque Config.tickTolerance : Nat

/-- EXT_PULLUP, whether the board has an external pull-up (R8, R304, U10). OPEN; no rule of the block reads it,
only the host's boot order does (log 14). -/
opaque Config.extPullup : Bool

/-- BASE, the platform's base address of the register space (R81, U11). OPEN (log 14). -/
opaque Config.base : Nat

end Sys2Proof
end

