-- ==== Sys2Proof/Syntax.lean ====
section
/-! DEFINITION. The block's five commands (30_encoding.md R101; spec/opcode_table.json). -/

namespace Sys2Proof

/-- One constructor per row of spec/opcode_table.json. No command has an immediate field (R100): an operand is in
DATA (R102). -/
inductive Instr where
  /-- RESET: reset pulse and presence detection (R223). -/
  | reset
  /-- WRITE_BIT: one write slot with DATA[0] (R172). -/
  | writeBit
  /-- READ_BIT: one read slot into DATA (R180). -/
  | readBit
  /-- WRITE_BYTE: eight write slots, DATA[0] first (R201). -/
  | writeByte
  /-- READ_BYTE: eight read slots into DATA, bit 0 first (R202). -/
  | readByte
  deriving DecidableEq, Repr

end Sys2Proof
end

