-- ==== Sys2Proof/WellFormed.lean ====
section
/-! DEFINITION. What the model accepts: the constraints on a configuration (00_scope.md R9), the width of a host
access (20_memory.md R71), and the commands themselves. -/

namespace Sys2Proof

/-- R9: every phase lasts at least one tick. -/
def Params.phasesNonempty (p : Params) : Bool :=
  decide (1 ≤ p.tRstl) && decide (1 ≤ p.tPdw) && decide (1 ≤ p.tW1l) && decide (1 ≤ p.tW0l)
    && decide (1 ≤ p.tRdl) && decide (1 ≤ p.tRec)

/-- R9: the low-tick count of a whole window fits in CNT_W bits. -/
def Params.windowFitsCount (p : Params) : Bool :=
  decide (p.tPdw ≤ 2 ^ Config.cntWidth - 1)

/-- R9: "every phase length fits in TMR_W bits". R9 names each length but T_RDL, which its sentence covers
(DEDUCED, log 7). -/
def Params.phasesFitTimer (p : Params) : Bool :=
  let most := 2 ^ Config.tmrWidth - 1
  decide (p.tRstl ≤ most) && decide (p.tPdw ≤ most) && decide (p.tW0l ≤ most) && decide (p.tW1l ≤ most)
    && decide (p.tSlot + p.tRec ≤ most) && decide (p.tRp0 ≤ most) && decide (p.tRp1 ≤ most)
    && decide (p.tRdl ≤ most)

/-- R9: P_MIN ≤ P_MAX. -/
def Params.boundsOrdered (p : Params) : Bool :=
  decide (p.pMin ≤ p.pMax)

/-- R9: D_MAX ≥ max(T_RTH, T_RP0, T_RP1), so that saturation of `dur` changes no result (R178). -/
def Params.durationCovers (p : Params) : Bool :=
  decide (max p.tRth (max p.tRp0 p.tRp1) ≤ Config.durMax)

/-- All constraints of R9. A configuration that violates one is refused (U12). -/
def Params.ok (p : Params) : Bool :=
  p.phasesNonempty && p.windowFitsCount && p.phasesFitTimer && p.boundsOrdered && p.durationCovers

/-- R71: a host access moves exactly 8 bits; any other width is refused (U6). -/
def accessWidthOk (width : Nat) : Bool :=
  width == 8

/-- A command has no operand field, so every command is well formed (R100). -/
def Instr.wf : Instr → Bool
  | .reset => true
  | .writeBit => true
  | .readBit => true
  | .writeByte => true
  | .readByte => true

end Sys2Proof
end

