-- ==== Sys2Proof/Decode.lean ====
section
/-! DEFINITION. The CMD8 format: the total decoder of 30_encoding.md R105 and the encoder of R101. -/

namespace Sys2Proof

/-- Why a CMD byte is illegal (R103). The hardware does the same for both (R104): the reason is only a name. -/
inductive Illegal where
  /-- Z = CMD[7:3] is not zero. -/
  | zNotZero
  /-- Z is zero and OPC is 0b000, 0b110 or 0b111. -/
  | reservedOpcode
  deriving DecidableEq, Repr

/-- What a CMD byte stands for. -/
inductive Decoded where
  | command (i : Instr)
  | illegal (why : Illegal)
  deriving DecidableEq, Repr

/-- OPC, bits 2:0 of CMD8 (R100). -/
def opcField (v : Byte) : Opcode :=
  v.extractLsb' 0 3

/-- Z, bits 7:3 of CMD8 (R100). -/
def zField (v : Byte) : BitVec 5 :=
  v.extractLsb' 3 5

/-- The decoder of R105, total on every byte. -/
def decode (v : Byte) : Decoded :=
  if zField v != 0#5 then .illegal .zNotZero
  else
    match (opcField v).toNat with
    | 1 => .command .reset
    | 2 => .command .writeBit
    | 3 => .command .readBit
    | 4 => .command .writeByte
    | 5 => .command .readByte
    | _ => .illegal .reservedOpcode

/-- OPC of a command (R101). -/
def Instr.opcode : Instr → Opcode
  | .reset => 0b001#3
  | .writeBit => 0b010#3
  | .readBit => 0b011#3
  | .writeByte => 0b100#3
  | .readByte => 0b101#3

/-- The CMD byte of a command: Z = 0b00000 above OPC (R100, R101). -/
def encode (i : Instr) : Byte :=
  0b00000#5 ++ i.opcode

/-- The instruction the decoder reads from a word of the opcode table. A command word is one byte long (R100); any
other length is no command word. -/
def decodeTableWord (nbits w : Nat) : Option Instr :=
  if nbits = 8 then
    match decode (BitVec.ofNat 8 w) with
    | .command i => some i
    | .illegal _ => none
  else none

end Sys2Proof
end

