-- ==== Sys2Proof/Machine/State.lean ====
section
/-! DEFINITION. The state of the block (10_state.md R54), the ports and events around it, and the reasons the
model stops. -/

namespace Sys2Proof.Machine

/-- The sequencer phase `ph` (R44). -/
inductive Phase where
  /-- IDLE: no command in progress. -/
  | idle
  /-- RST_LOW: the reset pulse, line driven low. -/
  | rstLow
  /-- RST_SAMP: the presence sampling window. -/
  | rstSamp
  /-- WR_LOW: the low part of a write slot. -/
  | wrLow
  /-- WR_HIGH: the rest of a write slot and its recovery. -/
  | wrHigh
  /-- RD_LOW: read-slot initiation, line driven low. -/
  | rdLow
  /-- RD_MEAS: measuring the device's low duration. -/
  | rdMeas
  /-- RD_PAD: the pad after the measurement. -/
  | rdPad
  deriving DecidableEq, Repr

/-- The block's entire state: exactly the list of R54 (R51, R55). STATUS.BUSY, `bus_drive_low` and `pullup_en` are
functions of it (R50, R31, R33). -/
structure Block where
  /-- The sequencer phase (R44). -/
  ph : Phase
  /-- Ticks left in the current timed phase, the current one counted (R45). -/
  tmr : Timer
  /-- Low ticks seen so far in the presence window (R46). -/
  cnt : Count
  /-- Low ticks measured so far in the read slot, saturating (R47). -/
  dur : Duration
  /-- Index of the bit whose slot is in progress (R48). -/
  idx : BitIndex
  /-- Opcode of the command in progress or of the last accepted one (R49). -/
  op : Opcode
  /-- DATA, address 0x1 (R36). -/
  data : Byte
  /-- STATUS.PRESENCE (R37, R38). -/
  presence : Bool
  /-- STATUS.ERR_BUSY, sticky (R37, R272). -/
  errBusy : Bool
  /-- STATUS.ERR_CMD, sticky (R37, R271). -/
  errCmd : Bool
  /-- CONFIG.PULLUP_EN (R41). -/
  pullupEn : Bool
  /-- PCNT, low-tick count of the last completed RESET (R42). -/
  pcnt : Count
  /-- RDUR, duration of the last completed read slot (R43); when a read command writes it is log 22. -/
  rdur : Duration
  deriving DecidableEq, Repr

/-- The reset values of R54, complete. -/
def Block.reset : Block where
  ph := .idle
  tmr := 0#10
  cnt := 0#9
  dur := 0#8
  idx := 0#3
  op := 0#3
  data := 0x00#8
  presence := false
  errBusy := false
  errCmd := false
  pullupEn := false
  pcnt := 0#9
  rdur := 0x00#8

/-- One event from outside the block (R6). Events are atomic and never overlap. -/
inductive Input where
  /-- One tick in which the bus environment's level is `env`, `true` for high (R143). -/
  | tick (env : Bool)
  /-- A host read of `width` bits at register address `a` (R72); only width 8 exists (R71). -/
  | read (width : Nat) (a : Addr)
  /-- A host write of `width` bits at register address `a` (R73); only width 8 exists (R71), and `v` is its value. -/
  | write (width : Nat) (a : Addr) (v : Byte)
  /-- The `rst` input takes the level `level` (R300). -/
  | rst (level : Bool)
  deriving DecidableEq, Repr

/-- The model's state. `blk` is the spec's state; `rst` and `rdata` are ports of R30 that outlast one event; `cfg`,
`inputs` and `draws` are the model's own. -/
structure State where
  /-- The parameter record of R7, fixed for a run (log 6). -/
  cfg : Params
  /-- The block's state (R54). -/
  blk : Block
  /-- The level of the `rst` input (R300, log 4). -/
  rst : Bool
  /-- The value the last host read put on `reg_rdata` (R30, log 5). -/
  rdata : Byte
  /-- The events still to come, first first (log 1). -/
  inputs : List Input
  /-- How many free values have been drawn (log 2). -/
  draws : Nat
  deriving DecidableEq, Repr

/-- The machine right after reset: R54's values, `rst` deasserted, R7's parameters, no event listed. `rdata`,
`inputs` and `draws` are DESIGN CHOICES (log 5, log 1, log 2). -/
def State.reset : State where
  cfg := Params.default
  blk := Block.reset
  rst := false
  rdata := 0x00#8
  inputs := []
  draws := 0

/-- Why the machine stops with a fault. There is no constructor: the block has no trap and no condition that stops
it (R274, R277); errors are sticky flags (R270), and a hang is no fault (R182, U3). Nothing raises one: safe. -/
inductive Fault : Type
  deriving DecidableEq, Repr

/-- Why the model refuses. -/
inductive Refusal where
  /-- Raised by `exec` for a command that has no meaning yet; no command is left so. Safe. -/
  | notModelled (mnemonic : String)
  /-- Raised by `step` and by every command for a configuration outside R9, which "a model refuses" (U12). Safe. -/
  | configuration
  /-- Raised by `step` for a host access whose width is not 8 bits, which "a model refuses" (R71, U6). Safe. -/
  | accessWidth
  deriving DecidableEq, Repr

/-- The outcome of one step of this machine. -/
abbrev Result := Host.Outcome State Fault Refusal

end Sys2Proof.Machine
end

