-- ==== Sys2Proof/Machine/Flags.lean ====
section
/-! DEFINITION. The flags of STATUS (10_state.md R37 to R40, R50): how each is read, raised and cleared. -/

namespace Sys2Proof.Machine

/-- STATUS.BUSY = (ph ≠ IDLE) (R50). -/
def Block.busy (b : Block) : Bool :=
  b.ph != .idle

/-- STATUS as one byte: 0b00, ERR_CMD, ERR_BUSY, 0b00, PRESENCE, BUSY from bit 7 down (R40). -/
def Block.status (b : Block) : Byte :=
  0b00#2 ++ BitVec.ofBool b.errCmd ++ BitVec.ofBool b.errBusy ++ 0b00#2 ++ BitVec.ofBool b.presence
    ++ BitVec.ofBool b.busy

/-- The two error conditions that have a code (R270). -/
inductive Err where
  /-- ERR_CMD: an illegal CMD byte written while idle (R271). -/
  | cmd
  /-- ERR_BUSY: CMD, DATA or CONFIG written while busy (R272). -/
  | busy
  deriving DecidableEq, Repr

/-- `raise E` of R12: set the sticky flag of E and nothing else; no trap, no transfer of control (R277). This is
the block's counterpart of taking an exception. -/
def Block.raise (b : Block) : Err → Block
  | .cmd => { b with errCmd := true }
  | .busy => { b with errBusy := true }

/-- A host write of `v` to STATUS: bit 4 clears ERR_BUSY, bit 5 clears ERR_CMD, every other bit is ignored (R37,
R73). This is the block's counterpart of returning from an exception (R278). -/
def Block.clearErrors (b : Block) (v : Byte) : Block :=
  { b with
    errBusy := b.errBusy && !v.getLsbD 4
    errCmd := b.errCmd && !v.getLsbD 5 }

end Sys2Proof.Machine
end

