-- ==== Sys2Proof/Machine/Operands.lean ====
section
/-! DEFINITION. Where a command's operand comes from and its result goes to (30_encoding.md R102, 42_byte_io.md
R200): bits of DATA, and zero extension. -/

namespace Sys2Proof.Machine

/-- `zext_8` of one bit (R10). -/
def zextBit (x : Bool) : Byte :=
  if x then 1#8 else 0#8

/-- `v[i] <- x`: bit `i` replaced, every other bit kept. -/
def setBit (v : Byte) (i : BitIndex) (x : Bool) : Byte :=
  (v &&& ~~~(1#8 <<< i.toNat)) ||| (zextBit x <<< i.toNat)

/-- DATA[idx], the bit the current slot sends (R145, R170, R200). For WRITE_BIT `idx` is 0 and it is the operand DATA[0]; DATA[7:1] are
ignored (R102, R172). -/
def Block.slotBit (b : Block) : Bool :=
  b.data.getLsbD b.idx.toNat

/-- `DATA[idx] <- x`, the result bit of the current slot (R176, R200). -/
def Block.storeSlotBit (b : Block) (x : Bool) : Block :=
  { b with data := setBit b.data b.idx x }

end Sys2Proof.Machine
end

