-- ==== Sys2Proof/Machine/Timing.lean ====
section
/-! DEFINITION. Phase, slot and command lengths in ticks (41_bit_io.md R170 to R181, 42_byte_io.md R204). -/

namespace Sys2Proof.Machine

/-- `sat_sub` of R11 (monus). -/
def satSub (a b : Nat) : Nat :=
  if a > b then a - b else 0

/-- `sat_inc_8` of R11, for `dur`. -/
def satInc8 (x : Duration) : Duration :=
  if x = 255#8 then x else x + 1#8

/-- L, the low time of a write slot for a bit (R145, R170). -/
def writeLow (cfg : Params) (b : Bool) : Nat :=
  if b then cfg.tW1l else cfg.tW0l

/-- The released time of a write slot for a bit, never negative (R170, R107). -/
def writeHigh (cfg : Params) (b : Bool) : Nat :=
  satSub cfg.tSlot (writeLow cfg b) + cfg.tRec

/-- `classify` of R177: a low duration below T_RTH is bit 1. -/
def classify (cfg : Params) (dur : Nat) : Bool :=
  decide (dur < cfg.tRth)

/-- `pad` of R178; a negative pad is 0. -/
def readPad (cfg : Params) (b : Bool) (dur : Nat) : Nat :=
  if b then satSub cfg.tRp1 dur else satSub cfg.tRp0 dur

/-- `presence` of R222, both bounds inclusive. -/
def presenceOf (cfg : Params) (c : Nat) : Bool :=
  decide (cfg.pMin ≤ c) && decide (c ≤ cfg.pMax)

/-- Length of a write slot (R173). -/
def writeSlotTicks (cfg : Params) (b : Bool) : Nat :=
  writeLow cfg b + writeHigh cfg b

/-- Length of a read slot on a line low for `d` ticks after release and then high (R181). -/
def readSlotTicks (cfg : Params) (d : Nat) : Nat :=
  cfg.tRdl + (d + 1) + readPad cfg (classify cfg d) d

/-- Ticks before slot `i` of a WRITE_BYTE of `v`: the sum of the slots before it (R201, R204). -/
def writeSlotStart (cfg : Params) (v : Byte) : Nat → Nat
  | 0 => 0
  | i + 1 => writeSlotStart cfg v i + writeSlotTicks cfg (v.getLsbD i)

/-- Length of a WRITE_BYTE of `v` (R204). -/
def writeByteTicks (cfg : Params) (v : Byte) : Nat :=
  writeSlotStart cfg v 8

/-- Length of RESET (R225). -/
def resetTicks (cfg : Params) : Nat :=
  cfg.tRstl + cfg.tPdw

end Sys2Proof.Machine
end

