-- ==== Sys2Proof/Machine/Ops.lean ====
section
/-! DEFINITION. The operations every command shares: outputs and line (10_state.md §1, 40_sequencer.md R142, R143),
phases and slots (R145, R146), acceptance of a command (R144, 20_memory.md R76), and the named operations on the
state around the block. -/

namespace Sys2Proof.Machine

/-! ### Outputs and line -/

/-- `bus_drive_low` as a function of the phase (R31, R142). -/
def Block.driveLow (b : Block) : Bool :=
  match b.ph with
  | .idle => false
  | .rstLow => true
  | .rstSamp => false
  | .wrLow => true
  | .wrHigh => false
  | .rdLow => true
  | .rdMeas => false
  | .rdPad => false

/-- `line(t)` for an environment level `env`: low when driven, else the environment's (R143). -/
def Block.line (b : Block) (env : Bool) : Bool :=
  if b.driveLow then false else env

/-- The `pullup_en` output equals CONFIG.PULLUP_EN (R33). -/
def Block.pullupOut (b : Block) : Bool :=
  b.pullupEn

/-! ### Phases and slots -/

/-- Enter phase `p` with `n` ticks to go: `ph <- p; tmr <- n`. -/
def Block.enter (b : Block) (p : Phase) (n : Nat) : Block :=
  { b with ph := p, tmr := BitVec.ofNat 10 n }

/-- `tmr <- tmr - 1`: one tick of a timed phase that does not end it. -/
def Block.countDown (b : Block) : Block :=
  { b with tmr := b.tmr - 1#10 }

/-- `ph <- IDLE`. -/
def Block.toIdle (b : Block) : Block :=
  { b with ph := .idle }

/-- op ∈ {WRITE_BIT, WRITE_BYTE}. -/
def Block.opWrites (b : Block) : Bool :=
  b.op == Instr.writeBit.opcode || b.op == Instr.writeByte.opcode

/-- op ∈ {WRITE_BYTE, READ_BYTE}. -/
def Block.opIsByte (b : Block) : Bool :=
  b.op == Instr.writeByte.opcode || b.op == Instr.readByte.opcode

/-- `start_slot` of R145. -/
def Block.startSlot (cfg : Params) (b : Block) : Block :=
  if b.opWrites then b.enter .wrLow (writeLow cfg b.slotBit)
  else b.enter .rdLow cfg.tRdl

/-- `finish_slot` of R146, the byte framer: the next slot of a byte command, or IDLE. -/
def Block.finishSlot (cfg : Params) (b : Block) : Block :=
  if b.opIsByte && decide (b.idx.toNat < 7) then Block.startSlot cfg { b with idx := b.idx + 1#3 }
  else b.toIdle

/-! ### The state around the block -/

/-- Replace the block. -/
def State.setBlk (s : State) (b : Block) : State :=
  { s with blk := b }

/-- Set the level of `rst`. -/
def State.setRst (s : State) (level : Bool) : State :=
  { s with rst := level }

/-- Put a value on `reg_rdata`. -/
def State.setRdata (s : State) (v : Byte) : State :=
  { s with rdata := v }

/-- Replace the list of events still to come. -/
def State.setInputs (s : State) (l : List Input) : State :=
  { s with inputs := l }

/-- Count one more free value as drawn (log 2). -/
def State.nextDraw (s : State) : State :=
  { s with draws := s.draws + 1 }

/-- The block as the outside sees it: while `rst` = 1 its state is the reset state (R300). The two differ only in
states no run reaches (log 13). -/
def State.liveBlock (s : State) : Block :=
  if s.rst then Block.reset else s.blk

/-! ### Accepting a command -/

/-- The start of an accepted command (R144): `op <- OPC; idx <- 0`. -/
def Block.startCommand (b : Block) (i : Instr) : Block :=
  { b with op := i.opcode, idx := 0#3 }

/-- `DATA <- 0x00` at the acceptance of a read command (R144). -/
def Block.clearData (b : Block) : Block :=
  { b with data := 0x00#8 }

/-- A host write to CMD, DATA or CONFIG, whose effect on an idle block is `effect`: refused for a configuration
outside R9 (U12), ignored while `rst` = 1 (R300), rejected with ERR_BUSY while busy (R76, R272), and otherwise
`effect` (R73). The order of the checks is R276's: a CMD byte is not looked at while busy. -/
def guardedWrite (effect : Params → Block → Block) (s : State) : Result :=
  if s.cfg.ok then
    if s.rst then .next s
    else if s.blk.busy then .next (s.setBlk (s.blk.raise .busy))
    else .next (s.setBlk (effect s.cfg s.blk))
  else .refused .configuration

/-- A host write of an illegal byte to CMD: ERR_CMD, nothing started, nothing else changed (R271, R103). -/
def illegalCommand (s : State) : Result :=
  guardedWrite (fun _ b => b.raise .cmd) s

end Sys2Proof.Machine
end

