-- ==== Sys2Proof/Machine/BitIO.lean ====
section
/-! DEFINITION. Bit-level I/O (41_bit_io.md): the arms of the write slot and the read slot, WRITE_BIT, READ_BIT. -/

namespace Sys2Proof.Machine

/-- `arm_WR_LOW` of R170. -/
def armWrLow (cfg : Params) (b : Block) : Block :=
  if b.tmr = 1#10 then b.enter .wrHigh (writeHigh cfg b.slotBit) else b.countDown

/-- `arm_WR_HIGH` of R171. -/
def armWrHigh (cfg : Params) (b : Block) : Block :=
  if b.tmr = 1#10 then b.finishSlot cfg else b.countDown

/-- `arm_RD_LOW` of R175; `tmr` keeps its value into RD_MEAS, which ignores it (R45). -/
def armRdLow (b : Block) : Block :=
  if b.tmr = 1#10 then { b with ph := .rdMeas, dur := 0#8 } else b.countDown

/-- The end of a measurement (R176): the bit classified and stored, and RDUR written, as R176, R202 and R43 say. R149 and
R306 put the write of RDUR in the command's last tick instead: a disagreement the spec leaves open, so that the time is
the model's parameter `rdurTime`, whose default is this arm's (log 22). DATA[idx] is written here under both: no host read
sees DATA before the command ends (R77, D11). -/
def Block.storeMeasured (cfg : Params) (b : Block) : Block :=
  { b.storeSlotBit (classify cfg b.dur.toNat) with
    rdur := if cfg.rdurTime = .atMeasurement then b.dur else b.rdur }

/-- The end of a read slot: `finish_slot` of R146 and nothing else (R176, R179), but that under the other value of
`rdurTime`, the reading of R149 and R306, RDUR is written in the tick that ends the command (log 22). `dur` still holds the slot's measurement: nothing writes it before the next
RD_MEAS (R175). -/
def Block.finishReadSlot (cfg : Params) (b : Block) : Block :=
  { b.finishSlot cfg with
    rdur := if cfg.rdurTime = .atCommandEnd ∧ (b.finishSlot cfg).ph = .idle then b.dur else b.rdur }

/-- `arm_RD_MEAS(l)` of R176. A low line adds one to `dur`; the first high line ends the measurement and is not
counted. On a line that stays low the phase never ends (R182). -/
def armRdMeas (cfg : Params) (l : Bool) (b : Block) : Block :=
  if l then
    let p := readPad cfg (classify cfg b.dur.toNat) b.dur.toNat
    if p = 0 then (b.storeMeasured cfg).finishReadSlot cfg else (b.storeMeasured cfg).enter .rdPad p
  else { b with dur := satInc8 b.dur }

/-- `arm_RD_PAD` of R179; when RDUR is written is log 22. -/
def armRdPad (cfg : Params) (b : Block) : Block :=
  if b.tmr = 1#10 then b.finishReadSlot cfg else b.countDown

/-- WRITE_BIT, a write of 0x02 to CMD (R172, R144): on an idle block one write slot with DATA[0] starts. The slot
itself is the ticks that follow (log 10). -/
def execWriteBit (s : State) : Result :=
  guardedWrite (fun cfg b => (b.startCommand .writeBit).startSlot cfg) s

/-- READ_BIT, a write of 0x03 to CMD (R180, R144): on an idle block DATA is cleared and one read slot starts. -/
def execReadBit (s : State) : Result :=
  guardedWrite (fun cfg b => (b.startCommand .readBit).clearData.startSlot cfg) s

end Sys2Proof.Machine
end

