-- ==== Sys2Proof/Machine/ByteIO.lean ====
section
/-! DEFINITION. Byte-level I/O (42_byte_io.md): WRITE_BYTE and READ_BYTE. The byte framer is no phase of its own: it
is `Block.finishSlot` (R146) over the slot arms of BitIO.lean. -/

namespace Sys2Proof.Machine

/-- WRITE_BYTE, a write of 0x04 to CMD (R201, R144): on an idle block the first of eight write slots starts, with
DATA[0]. -/
def execWriteByte (s : State) : Result :=
  guardedWrite (fun cfg b => (b.startCommand .writeByte).startSlot cfg) s

/-- READ_BYTE, a write of 0x05 to CMD (R202, R144): on an idle block DATA is cleared and the first of eight read slots
starts. -/
def execReadByte (s : State) : Result :=
  guardedWrite (fun cfg b => (b.startCommand .readByte).clearData.startSlot cfg) s

end Sys2Proof.Machine
end

