-- ==== Sys2Proof/Machine/ResetPresence.lean ====
section
/-! DEFINITION. Reset and presence detection (43_reset_presence.md): the two arms of RESET, and RESET. -/

namespace Sys2Proof.Machine

/-- `arm_RST_LOW` of R220. -/
def armRstLow (cfg : Params) (b : Block) : Block :=
  if b.tmr = 1#10 then { b.enter .rstSamp cfg.tPdw with cnt := 0#9 } else b.countDown

/-- `c` of R221: the low ticks counted so far, the current tick's included. -/
def Block.countWith (b : Block) (l : Bool) : Count :=
  b.cnt + (if l then 0#9 else 1#9)

/-- `arm_RST_SAMP(l)` of R221. The last tick of the window writes PRESENCE (R222) and PCNT. -/
def armRstSamp (cfg : Params) (l : Bool) (b : Block) : Block :=
  if b.tmr = 1#10 then
    { b.toIdle with presence := presenceOf cfg (b.countWith l).toNat, pcnt := b.countWith l }
  else { b.countDown with cnt := b.countWith l }

/-- RESET, a write of 0x01 to CMD (R223, R144): on an idle block the reset pulse starts. -/
def execReset (s : State) : Result :=
  guardedWrite (fun cfg b => (b.startCommand .reset).enter .rstLow cfg.tRstl) s

end Sys2Proof.Machine
end

