-- ==== Sys2Proof/Machine/Access.lean ====
section
/-! DEFINITION. The register space (20_memory.md): host reads (R72), host writes (R73), and the place of the space on
the platform's bus (R81). -/

namespace Sys2Proof.Machine

/-- CMD, address 0x0 (R35). -/
abbrev regCmd : Addr := 0x0#3
/-- DATA, address 0x1 (R36). -/
abbrev regData : Addr := 0x1#3
/-- STATUS, address 0x2 (R37). -/
abbrev regStatus : Addr := 0x2#3
/-- CONFIG, address 0x3 (R41). -/
abbrev regConfig : Addr := 0x3#3
/-- PCNT_LO, address 0x4 (R42). -/
abbrev regPcntLo : Addr := 0x4#3
/-- PCNT_HI, address 0x5 (R42). -/
abbrev regPcntHi : Addr := 0x5#3
/-- RDUR, address 0x6 (R43). -/
abbrev regRdur : Addr := 0x6#3
/-- The reserved address 0x7 (R78). -/
abbrev regReserved : Addr := 0x7#3

/-- The bus address of a register: BASE + a (R81). -/
def busAddress (a : Addr) : Nat :=
  Config.base + a.toNat

/-- The register at a bus address, if the address lies in the block's space (R81, R70). -/
def registerAt (n : Nat) : Option Addr :=
  if Config.base ≤ n ∧ n < Config.base + 8 then some (BitVec.ofNat 3 (n - Config.base)) else none

/-- `R[a]` of R72, with `free` the value a DATA read gives while busy (R77). -/
def Block.readReg (b : Block) (free : Byte) (a : Addr) : Byte :=
  match a.toNat with
  | 0 => 0x00#8
  | 1 => if b.busy then free else b.data
  | 2 => b.status
  | 3 => zextBit b.pullupEn
  | 4 => b.pcnt.extractLsb' 0 8
  | 5 => zextBit (b.pcnt.getLsbD 8)
  | 6 => b.rdur
  | _ => 0x00#8

/-- Does reading `a` take a free value: DATA while busy (R77, U1). -/
def Block.readIsFree (b : Block) (a : Addr) : Bool :=
  a == regData && b.busy

/-- A host read event (R72): the value goes to `reg_rdata`, and the block does not change (R74). A read of DATA while
busy takes one free value, independent of every other (R77, U1). -/
def hostRead (a : Addr) (s : State) : State :=
  let s' := s.setRdata (s.liveBlock.readReg (Config.dataWhileBusy s.draws) a)
  if s.liveBlock.readIsFree a then s'.nextDraw else s'

/-- A host write to CMD (R73, R144): the command's meaning, or ERR_CMD for an illegal byte. Either checks `rst` and
busy first (R300, R276). -/
def writeCmd (v : Byte) (s : State) : Result :=
  match decode v with
  | .command i => exec i s
  | .illegal _ => illegalCommand s

/-- A host write to DATA (R73, R76). -/
def writeData (v : Byte) (s : State) : Result :=
  guardedWrite (fun _ b => { b with data := v }) s

/-- A host write to STATUS, accepted in every phase, ignored while `rst` = 1 (R73, R278, R300). -/
def writeStatus (v : Byte) (s : State) : Result :=
  if s.rst then .next s else .next (s.setBlk (s.blk.clearErrors v))

/-- A host write to CONFIG: bit 0 is PULLUP_EN, the others are ignored (R41, R73, R76). -/
def writeConfig (v : Byte) (s : State) : Result :=
  guardedWrite (fun _ b => { b with pullupEn := v.getLsbD 0 }) s

/-- A host write event `R[a] <- v` (R73). Addresses 0x4 to 0x7 have no effect in any phase (R76, R78). -/
def hostWrite (a : Addr) (v : Byte) (s : State) : Result :=
  match a.toNat with
  | 0 => writeCmd v s
  | 1 => writeData v s
  | 2 => writeStatus v s
  | 3 => writeConfig v s
  | _ => .next s

end Sys2Proof.Machine
end

