-- ==== Sys2Proof/Machine/Sequencer.lean ====
section
/-! DEFINITION. The tick (40_sequencer.md R140, R141): one step of the sequencer. -/

namespace Sys2Proof.Machine

/-- `arm_IDLE` of R147: nothing changes. -/
def armIdle (b : Block) : Block :=
  b

/-- One tick in which the environment's level is `env` (R140, R141): the line is fixed from the phase at the start of
the tick (R142, R143), and the arm of that phase gives the next state. -/
def Block.tick (cfg : Params) (env : Bool) (b : Block) : Block :=
  match b.ph with
  | .idle => armIdle b
  | .rstLow => armRstLow cfg b
  | .rstSamp => armRstSamp cfg (b.line env) b
  | .wrLow => armWrLow cfg b
  | .wrHigh => armWrHigh cfg b
  | .rdLow => armRdLow b
  | .rdMeas => armRdMeas cfg (b.line env) b
  | .rdPad => armRdPad cfg b

/-- Ticks in a row, the environment's level of each in `envs`, first first. -/
def Block.ticks (cfg : Params) : List Bool → Block → Block
  | [], b => b
  | e :: envs, b => Block.ticks cfg envs (b.tick cfg e)

/-- A tick event: an ordinary tick, or, while `rst` = 1, a tick that leaves the reset values (R300). -/
def tickEvent (env : Bool) (s : State) : State :=
  s.setBlk (if s.rst then s.liveBlock else s.blk.tick s.cfg env)

/-- A tick whose line level the event list does not give: the environment's level is a free value (R143, U2). -/
def freeTick (s : State) : State :=
  (tickEvent (Config.envLevel s.draws) s).nextDraw

end Sys2Proof.Machine
end

