-- ==== Sys2Proof/Machine/Events.lean ====
section
/-! DEFINITION. The four kinds of event (00_scope.md R6): a tick, a host read or write, a change of `rst`. -/

namespace Sys2Proof.Machine

/-- The `rst` input takes a level (R300): while it is 1 every state element of R54 has its reset value, set at once, so
a command in progress is aborted without a result (R301); back at 0 the block goes on from there. -/
def rstEvent (level : Bool) (s : State) : State :=
  (s.setRst level).setBlk (if level then Block.reset else s.liveBlock)

/-- One event. An access that is not 8 bits wide is refused (R71, U6). -/
def perform (i : Input) (s : State) : Result :=
  match i with
  | .tick env => .next (tickEvent env s)
  | .read width a => if accessWidthOk width then .next (hostRead a s) else .refused .accessWidth
  | .write width a v => if accessWidthOk width then hostWrite a v s else .refused .accessWidth
  | .rst level => .next (rstEvent level s)

/-- What happens next (log 1): the first event listed, or, when none is listed, a tick whose line level is free. -/
def nextEvent (s : State) : Result :=
  match s.inputs with
  | [] => .next (freeTick s)
  | i :: rest => perform i (s.setInputs rest)

/-- The event list with a CMD write of a word put first (log 11): the block fetches nothing (R85), and a command's
word reaches it as the data of the host's next write to CMD. -/
def withCommandWrite (s : State) (nbits w : Nat) : State :=
  s.setInputs (.write nbits regCmd (BitVec.ofNat 8 w) :: s.inputs)

end Sys2Proof.Machine
end

