-- ==== Sys2Proof/Machine/Step.lean ====
section
/-! DEFINITION. One step of the machine: one event (00_scope.md R6), for a configuration that meets R9. -/

namespace Sys2Proof.Machine

/-- One step: the next event. A configuration that violates R9 is refused (U12). -/
def step (s : State) : Host.Outcome State Fault Refusal :=
  if s.cfg.ok then nextEvent s else .refused .configuration

/-- `s` with a command word as the next event (log 11). -/
def State.withFetchWord (s : State) (nbits w : Nat) : State :=
  withCommandWrite s nbits w

end Sys2Proof.Machine
end

