-- ==== Sys2Proof/Machine/HostNotation.lean ====
section
/-! DEFINITION. The spec's notation for host programs (30_encoding.md R111, R112) and the boot order
(70_reset_and_hazards.md R304), as lists of events, and the bytes such programs send (R113, R114). It is no part of
the block: it says which events a host that follows the notation makes (log 20). -/

namespace Sys2Proof.Machine

/-- A host operation of R111, or the WAIT of R112. -/
inductive HostOp where
  /-- `WR a, v`. -/
  | wr (a : Addr) (v : Byte)
  /-- `RD a -> t`. -/
  | rd (a : Addr)
  /-- `WAIT`: read STATUS until bit 0 is 0. -/
  | wait
  deriving DecidableEq, Repr

/-- The pseudo-instructions of R112, WAIT apart. -/
inductive Pseudo where
  /-- `OW.PULLUP e`. -/
  | pullup (e : Bool)
  /-- `OW.RESET -> p`. -/
  | reset
  /-- `OW.WRBIT b`. -/
  | wrBit (b : Bool)
  /-- `OW.RDBIT -> b`. -/
  | rdBit
  /-- `OW.WRBYTE v`. -/
  | wrByte (v : Byte)
  /-- `OW.RDBYTE -> v`. -/
  | rdByte
  /-- `OW.CLRERR`. -/
  | clrErr
  deriving DecidableEq, Repr

/-- The expansions of R112. -/
def Pseudo.expand : Pseudo → List HostOp
  | .pullup e => [.wr regConfig (zextBit e)]
  | .reset => [.wr regCmd 0x01#8, .wait, .rd regStatus]
  | .wrBit b => [.wr regData (zextBit b), .wr regCmd 0x02#8, .wait]
  | .rdBit => [.wr regCmd 0x03#8, .wait, .rd regData]
  | .wrByte v => [.wr regData v, .wr regCmd 0x04#8, .wait]
  | .rdByte => [.wr regCmd 0x05#8, .wait, .rd regData]
  | .clrErr => [.wr regStatus 0x30#8]

/-- The sensor's command bytes that host programs send as data (R113). The block gives them no meaning. -/
inductive SensorCommand where
  | skipRom
  | convertT
  | readScratchpad
  | writeScratchpad
  deriving DecidableEq, Repr

/-- R113's byte of a sensor command. -/
def SensorCommand.byte : SensorCommand → Byte
  | .skipRom => 0xCC#8
  | .convertT => 0x44#8
  | .readScratchpad => 0xBE#8
  | .writeScratchpad => 0x4E#8

/-- The sensor's resolutions (R114), in bits. -/
inductive Resolution where
  | bits9
  | bits10
  | bits11
  | bits12
  deriving DecidableEq, Repr

/-- R114's configuration byte of a resolution: "only these four values are legal". -/
def Resolution.byte : Resolution → Byte
  | .bits9 => 0x1F#8
  | .bits10 => 0x3F#8
  | .bits11 => 0x5F#8
  | .bits12 => 0x7F#8

/-- Tick events with the given environment levels. -/
def tickInputs (envs : List Bool) : List Input :=
  envs.map .tick

/-- The events of one host operation. `gaps` holds the ticks that pass meanwhile, which the spec leaves to the host
(R111, R312): before the one access of WR and RD, and before each STATUS read of WAIT. -/
def HostOp.inputs (gaps : List (List Bool)) : HostOp → List Input
  | .wr a v => tickInputs gaps.flatten ++ [.write 8 a v]
  | .rd a => tickInputs gaps.flatten ++ [.read 8 a]
  | .wait => gaps.flatMap fun envs => tickInputs envs ++ [.read 8 regStatus]

/-- The events of host operations in a row, each with its gaps. -/
def hostInputs : List HostOp → List (List (List Bool)) → List Input
  | [], _ => []
  | op :: ops, gaps => op.inputs (gaps.headD []) ++ hostInputs ops gaps.tail

/-- The boot order of R304: `rst` deasserted, the pull-up enabled unless the board has one, the settle wait (its ticks
in `settle`, at least T_SETTLE of them for a host that keeps the rule), then RESET. -/
def bootInputs (extPullup : Bool) (settle : List Bool) : List Input :=
  [.rst false] ++ (if extPullup then [] else [.write 8 regConfig 0x01#8]) ++ tickInputs settle
    ++ [.write 8 regCmd 0x01#8]

end Sys2Proof.Machine
end

