-- ==== Sys2Proof/Safety.lean ====
section
/-! DEFINITION. The terms claims are stated in: an idle block ready for a command, the invariant of a run, a host that
respects the busy hazard (70_reset_and_hazards.md R305). -/

namespace Sys2Proof.Machine

/-- The block can accept a command: its configuration meets R9, `rst` is 0 and it is IDLE (R144, R300). -/
def State.ready (s : State) : Bool :=
  s.cfg.ok && !s.rst && !s.blk.busy

/-- A phase that `tmr` times (R45: RD_MEAS and IDLE ignore it). -/
def Phase.timed : Phase → Bool
  | .idle => false
  | .rstLow => true
  | .rstSamp => true
  | .wrLow => true
  | .wrHigh => true
  | .rdLow => true
  | .rdMeas => false
  | .rdPad => true

/-- The length of the current phase in ticks, for a timed phase (R220, R221, R170, R171, R175, R179). -/
def Block.phaseTicks (cfg : Params) (b : Block) : Nat :=
  match b.ph with
  | .idle => 0
  | .rstLow => cfg.tRstl
  | .rstSamp => cfg.tPdw
  | .wrLow => writeLow cfg b.slotBit
  | .wrHigh => writeHigh cfg b.slotBit
  | .rdLow => cfg.tRdl
  | .rdMeas => 0
  | .rdPad => readPad cfg (classify cfg b.dur.toNat) b.dur.toNat

/-- The commands that go through a phase (R148). -/
def Phase.ops : Phase → List Opcode
  | .idle => []
  | .rstLow => [Instr.reset.opcode]
  | .rstSamp => [Instr.reset.opcode]
  | .wrLow => [Instr.writeBit.opcode, Instr.writeByte.opcode]
  | .wrHigh => [Instr.writeBit.opcode, Instr.writeByte.opcode]
  | .rdLow => [Instr.readBit.opcode, Instr.readByte.opcode]
  | .rdMeas => [Instr.readBit.opcode, Instr.readByte.opcode]
  | .rdPad => [Instr.readBit.opcode, Instr.readByte.opcode]

/-- Which block states a run can reach, as far as claims need it. -/
structure Block.Inv (cfg : Params) (b : Block) : Prop where
  /-- A timed phase has a tick left, and never more than its length (R45). -/
  timer : b.ph.timed = true → 1 ≤ b.tmr.toNat ∧ b.tmr.toNat ≤ b.phaseTicks cfg
  /-- `cnt` never exceeds T_PDW (R46). -/
  count : b.cnt.toNat ≤ cfg.tPdw
  /-- In the window, the lows counted and the ticks left make at most T_PDW (R221). -/
  window : b.ph = .rstSamp → b.cnt.toNat + b.tmr.toNat ≤ cfg.tPdw
  /-- PCNT is the count of a window (R42). -/
  pcnt : b.pcnt.toNat ≤ cfg.tPdw
  /-- PRESENCE says whether PCNT is in the presence window (R222, R38), unless a count of 0 would be a presence. -/
  presence : 1 ≤ cfg.pMin → b.presence = presenceOf cfg b.pcnt.toNat
  /-- A phase belongs to the commands that go through it (R148). -/
  command : b.busy = true → b.op ∈ b.ph.ops
  /-- `idx` is 0 but in a byte command (R48). -/
  index : b.busy = true → b.opIsByte = false → b.idx = 0#3
  /-- In a read command every bit of DATA not yet measured is 0 (R144, R200). -/
  unread : (b.ph = .rdLow ∨ b.ph = .rdMeas) → ∀ j, b.idx.toNat ≤ j → b.data.getLsbD j = false
  /-- The same while the pad of a measured bit runs. -/
  unreadPad : b.ph = .rdPad → ∀ j, b.idx.toNat < j → b.data.getLsbD j = false

/-- The invariant of a run: the configuration meets R9, the block's invariant holds, and while `rst` = 1 the block is
in its reset state (R300). -/
structure State.Inv (s : State) : Prop where
  config : s.cfg.ok = true
  block : s.blk.Inv s.cfg
  reset : s.rst = true → s.blk = Block.reset

/-- The host respects the busy hazard (R305) and writes only legal command bytes (R103) with this event. -/
def Input.respectful (b : Block) : Input → Bool
  | .tick _ => true
  | .read _ _ => true
  | .rst _ => true
  | .write _ a v =>
    if a = regCmd then !b.busy && decide (v ∈ [Instr.reset, .writeBit, .readBit, .writeByte, .readByte].map encode)
    else if a = regData ∨ a = regConfig then !b.busy
    else true

/-- A tick or an access of the one width that exists: no event of `rst`. -/
def Input.ordinary : Input → Bool
  | .tick _ => true
  | .read width _ => accessWidthOk width
  | .write width _ _ => accessWidthOk width
  | .rst _ => false

/-- The environment's level of a tick event. -/
def Input.level? : Input → Option Bool
  | .tick env => some env
  | .read _ _ => none
  | .write _ _ _ => none
  | .rst _ => none

/-- The levels of the tick events of a list, in order. -/
def envLevels (l : List Input) : List Bool :=
  l.filterMap Input.level?

/-- The block with both error flags cleared: what a running command reads and writes (R76). -/
def Block.withoutErrors (b : Block) : Block :=
  { b with errBusy := false, errCmd := false }

/-- The environment's levels, tick by tick, of a read slot whose line is low for `d` ticks after release and then high
(R108, R181): anything while the block drives the line, `d` lows, one high, anything during the pad. -/
def IsReadSlot (cfg : Params) (d : Nat) (envs : List Bool) : Prop :=
  ∃ pre post, pre.length = cfg.tRdl ∧ post.length = readPad cfg (classify cfg d) d
    ∧ envs = pre ++ List.replicate d false ++ true :: post

/-- Fixture LB of R205, write side: the line at tick 30 of write slot `j`, recorded by a device that pulls nothing.
`b` is the block right after WRITE_BYTE was accepted. -/
def loopbackRecords (cfg : Params) (b : Block) (j : Nat) : Bool :=
  (b.ticks cfg (List.replicate (writeSlotStart cfg b.data j + 29) true)).line true

/-- Fixture LB of R205, read side: the levels of a read slot that answers the recorded bit, low at slot ticks 3 to 32
for 0 and never for 1. -/
def loopbackAnswers (cfg : Params) (bit : Bool) : List Bool :=
  [true, true]
    ++ (if bit then true :: List.replicate (readPad cfg true 0) true
        else List.replicate 30 false ++ true :: List.replicate (readPad cfg false 30) true)

end Sys2Proof.Machine
end

