-- ==== Sys2Proof/Certificates/Slice0/Obligations.lean ====
section
/-! DEFINITION. The statements for the provers, from the numbered rules of spec/. -/

open Sys2Proof Sys2Proof.Machine

/-! ### Encoding and configuration -/

/-- R105: the decoder on every byte; the five words of R101 and no other are commands. -/
def Obligations.DecoderReadsTheFiveWords : Prop :=
  (∀ v : Byte, decode v = .command .reset ↔ v = 0b00000001#8)
  ∧ (∀ v : Byte, decode v = .command .writeBit ↔ v = 0b00000010#8)
  ∧ (∀ v : Byte, decode v = .command .readBit ↔ v = 0b00000011#8)
  ∧ (∀ v : Byte, decode v = .command .writeByte ↔ v = 0b00000100#8)
  ∧ (∀ v : Byte, decode v = .command .readByte ↔ v = 0b00000101#8)
  ∧ ∀ v : Byte, (∃ why, decode v = .illegal why)
      ↔ v ≠ 1#8 ∧ v ≠ 2#8 ∧ v ≠ 3#8 ∧ v ≠ 4#8 ∧ v ≠ 5#8

/-- R100, R101: decoding and encoding agree, both ways, for every command. -/
def Obligations.DecodeAndEncodeAgree : Prop :=
  ∀ i : Instr, i.wf = true ∧ decode (encode i) = .command i
    ∧ decodeTableWord 8 (encode i).toNat = some i
    ∧ ∀ v : Byte, decode v = .command i → v = encode i

/-- R9: a configuration that violates one of the constraints is refused by every step and every command, and R7's
values meet them all. -/
def Obligations.BadConfigurationIsRefused : Prop :=
  (∀ s : State,
    ¬ (1 ≤ s.cfg.tRstl ∧ 1 ≤ s.cfg.tPdw ∧ 1 ≤ s.cfg.tW1l ∧ 1 ≤ s.cfg.tW0l ∧ 1 ≤ s.cfg.tRdl ∧ 1 ≤ s.cfg.tRec
        ∧ s.cfg.tPdw ≤ 2 ^ 9 - 1
        ∧ s.cfg.tRstl ≤ 2 ^ 10 - 1 ∧ s.cfg.tPdw ≤ 2 ^ 10 - 1 ∧ s.cfg.tW0l ≤ 2 ^ 10 - 1
        ∧ s.cfg.tW1l ≤ 2 ^ 10 - 1 ∧ s.cfg.tSlot + s.cfg.tRec ≤ 2 ^ 10 - 1
        ∧ s.cfg.tRp0 ≤ 2 ^ 10 - 1 ∧ s.cfg.tRp1 ≤ 2 ^ 10 - 1
        ∧ s.cfg.pMin ≤ s.cfg.pMax
        ∧ max s.cfg.tRth (max s.cfg.tRp0 s.cfg.tRp1) ≤ 255) →
    step s = .refused .configuration ∧ ∀ i, exec i s = .refused .configuration)
  ∧ Params.default.ok = true

/-- R81: register a is at BASE + a, and nothing else of the bus is in the block's space. -/
def Obligations.RegistersLieAtBase : Prop :=
  ∀ (n : Nat) (a : Addr), registerAt n = some a ↔ n = Config.base + a.toNat

/-! ### A step and its event -/

/-- A host write of a command's byte to CMD runs that command's meaning, in every state whose configuration meets R9:
the step takes the event off the list and is `exec` of the rest. The second clause, about `withFetchWord`, is no rule of
the spec but the model's choice of log 11 (DESIGN CHOICE): the next command word is a CMD write at the head of the list. -/
def Obligations.StepRunsTheDecodedCommand : Prop :=
  (∀ (s : State) (v : Byte) (i : Instr) (rest : List Input),
    s.cfg.ok = true → s.inputs = .write 8 regCmd v :: rest → decode v = .command i →
    step s = exec i (s.setInputs rest))
  ∧ ∀ (s : State) (i : Instr), s.cfg.ok = true → step (s.withFetchWord 8 (encode i).toNat) = exec i s

/-- R144, R145: what accepting each command leaves, on a block that is IDLE, not in reset, configured within R9: op and
idx, the first phase and its length, DATA cleared for a read, nothing else changed, and BUSY reading 1. -/
def Obligations.AcceptedCommandStartsItsFirstPhase : Prop :=
  ∀ s : State, s.ready = true →
    exec .reset s = .next (s.setBlk { s.blk with
      op := 0b001#3, idx := 0#3, ph := .rstLow, tmr := BitVec.ofNat 10 s.cfg.tRstl })
    ∧ exec .writeBit s = .next (s.setBlk { s.blk with
      op := 0b010#3, idx := 0#3, ph := .wrLow,
      tmr := BitVec.ofNat 10 (if s.blk.data.getLsbD 0 then s.cfg.tW1l else s.cfg.tW0l) })
    ∧ exec .readBit s = .next (s.setBlk { s.blk with
      op := 0b011#3, idx := 0#3, data := 0x00#8, ph := .rdLow, tmr := BitVec.ofNat 10 s.cfg.tRdl })
    ∧ exec .writeByte s = .next (s.setBlk { s.blk with
      op := 0b100#3, idx := 0#3, ph := .wrLow,
      tmr := BitVec.ofNat 10 (if s.blk.data.getLsbD 0 then s.cfg.tW1l else s.cfg.tW0l) })
    ∧ exec .readByte s = .next (s.setBlk { s.blk with
      op := 0b101#3, idx := 0#3, data := 0x00#8, ph := .rdLow, tmr := BitVec.ofNat 10 s.cfg.tRdl })
    ∧ ∀ i t, exec i s = .next t → t.blk.busy = true

/-- R76, R272, R300: where a command is turned away. While busy it sets ERR_BUSY and nothing else; while rst is 1 it is
ignored. -/
def Obligations.CommandIsTurnedAwayWhileBusyOrInReset : Prop :=
  ∀ (s : State) (i : Instr), s.cfg.ok = true →
    (s.rst = true → exec i s = .next s)
    ∧ (s.rst = false → s.blk.busy = true → exec i s = .next (s.setBlk { s.blk with errBusy := true }))

/-- The frame of the five commands at their CMD write, in every state: everything but op, idx, ph, tmr, ERR_BUSY is
unchanged, and DATA too unless a read command is accepted, which clears it. Said of the register space as well: every
address but DATA and STATUS reads as before, and STATUS but for its bits 0 and 4. `rdata`, `inputs` and `draws` are the
model's own fields (log 5, log 1, log 2). -/
def Obligations.CommandWriteFrame : Prop :=
  ∀ (i : Instr) (s t : State), exec i s = .next t →
    t.cfg = s.cfg ∧ t.rst = s.rst ∧ t.rdata = s.rdata ∧ t.inputs = s.inputs ∧ t.draws = s.draws
    ∧ t.blk.cnt = s.blk.cnt ∧ t.blk.dur = s.blk.dur ∧ t.blk.presence = s.blk.presence
    ∧ t.blk.errCmd = s.blk.errCmd ∧ t.blk.pullupEn = s.blk.pullupEn
    ∧ t.blk.pcnt = s.blk.pcnt ∧ t.blk.rdur = s.blk.rdur
    ∧ (i = .reset ∨ i = .writeBit ∨ i = .writeByte → t.blk.data = s.blk.data)
    ∧ (s.ready = false → t.blk.data = s.blk.data)
    ∧ (∀ a free, a ≠ regData → a ≠ regStatus → t.blk.readReg free a = s.blk.readReg free a)
    ∧ ∀ n, n ≠ 0 → n ≠ 4 → t.blk.status.getLsbD n = s.blk.status.getLsbD n

/-- A list of ticks, run by steps, is the sequencer's ticks in a row on the block, and takes exactly those events. -/
def Obligations.StepsRunTheTicks : Prop :=
  ∀ (s : State) (envs : List Bool) (rest : List Input),
    s.cfg.ok = true → s.rst = false → s.inputs = tickInputs envs ++ rest →
    Host.Core.run Sys2Proof.core envs.length s
      = .next ((s.setInputs rest).setBlk (s.blk.ticks s.cfg envs))

/-- R143: with no event listed a tick passes, with some line level of the environment. That an empty list means a tick is
the model's choice (log 1), and that its level is a free value (log 2), of which `draws` counts one more. -/
def Obligations.EmptyEventListIsATick : Prop :=
  ∀ s : State, s.cfg.ok = true → s.rst = false → s.inputs = [] →
    ∃ (e : Bool) (t : State), step s = .next t ∧ t.blk = s.blk.tick s.cfg e
      ∧ t.cfg = s.cfg ∧ t.rst = s.rst ∧ t.rdata = s.rdata ∧ t.inputs = [] ∧ t.draws = s.draws + 1

/-! ### The register space -/

/-- R72, R74: what a host read of each address returns, and that it changes nothing of the block. -/
def Obligations.HostReadTable : Prop :=
  ∀ (s : State) (a : Addr) (rest : List Input),
    s.cfg.ok = true → s.rst = false → s.inputs = .read 8 a :: rest →
    ∃ t, step s = .next t ∧ t.blk = s.blk ∧ t.cfg = s.cfg ∧ t.rst = s.rst ∧ t.inputs = rest
      ∧ (a = 0x0#3 → t.rdata = 0x00#8)
      ∧ (a = 0x1#3 → s.blk.ph ≠ .idle → t.rdata = Config.dataWhileBusy s.draws)
      ∧ (a = 0x1#3 → s.blk.ph = .idle → t.rdata = s.blk.data)
      ∧ (a = 0x2#3 → t.rdata.toNat
          = 32 * s.blk.errCmd.toNat + 16 * s.blk.errBusy.toNat + 2 * s.blk.presence.toNat + s.blk.busy.toNat)
      ∧ (a = 0x3#3 → t.rdata.toNat = s.blk.pullupEn.toNat)
      ∧ (a = 0x4#3 → t.rdata.toNat = s.blk.pcnt.toNat % 256)
      ∧ (a = 0x5#3 → t.rdata.toNat = s.blk.pcnt.toNat / 256)
      ∧ (a = 0x6#3 → t.rdata = s.blk.rdur)
      ∧ (a = 0x7#3 → t.rdata = 0x00#8)

/-- R73: what a host write to each address does, in every phase. -/
def Obligations.HostWriteTable : Prop :=
  ∀ (s : State) (a : Addr) (v : Byte) (rest : List Input),
    s.cfg.ok = true → s.rst = false → s.inputs = .write 8 a v :: rest →
    let s' := s.setInputs rest
    (a = 0x0#3 → s.blk.ph = .idle → ∀ i, decode v = .command i → step s = exec i s')
    ∧ (a = 0x0#3 → s.blk.ph = .idle → ∀ why, decode v = .illegal why →
        step s = .next (s'.setBlk { s.blk with errCmd := true }))
    ∧ (a = 0x1#3 → s.blk.ph = .idle → step s = .next (s'.setBlk { s.blk with data := v }))
    ∧ (a = 0x2#3 → step s = .next (s'.setBlk { s.blk with
        errBusy := if v.getLsbD 4 then false else s.blk.errBusy,
        errCmd := if v.getLsbD 5 then false else s.blk.errCmd }))
    ∧ (a = 0x3#3 → s.blk.ph = .idle → step s = .next (s'.setBlk { s.blk with pullupEn := v.getLsbD 0 }))
    ∧ (a = 0x0#3 ∨ a = 0x1#3 ∨ a = 0x3#3 → s.blk.ph ≠ .idle →
        step s = .next (s'.setBlk { s.blk with errBusy := true }))
    ∧ (4 ≤ a.toNat → step s = .next s')

/-- R71: a host access of any width but 8 bits is refused. -/
def Obligations.OtherAccessWidthsAreRefused : Prop :=
  ∀ (s : State) (width : Nat) (a : Addr) (v : Byte) (rest : List Input),
    s.cfg.ok = true → width ≠ 8 →
    (s.inputs = .read width a :: rest → step s = .refused .accessWidth)
    ∧ (s.inputs = .write width a v :: rest → step s = .refused .accessWidth)

/-! ### Errors -/

/-- R276: one host access raises at most one error, ERR_BUSY first, and ticks raise none. -/
def Obligations.OneErrorPerAccess : Prop :=
  ∀ s t : State, s.rst = false → step s = .next t →
    (∀ a v rest, s.inputs = .write 8 a v :: rest → (a = regCmd ∨ a = regData ∨ a = regConfig) → s.blk.busy = true →
      t.blk.errBusy = true ∧ t.blk.errCmd = s.blk.errCmd)
    ∧ (∀ v rest why, s.inputs = .write 8 regCmd v :: rest → s.blk.busy = false → decode v = .illegal why →
      t.blk.errCmd = true ∧ t.blk.errBusy = s.blk.errBusy)
    ∧ (∀ v rest i, s.inputs = .write 8 regCmd v :: rest → s.blk.busy = false → decode v = .command i →
      t.blk.errCmd = s.blk.errCmd ∧ t.blk.errBusy = s.blk.errBusy)
    ∧ (∀ a v rest, s.inputs = .write 8 a v :: rest → a ≠ regCmd → (a = regData ∨ a = regConfig → s.blk.busy = false) →
      (t.blk.errCmd = true → s.blk.errCmd = true) ∧ (t.blk.errBusy = true → s.blk.errBusy = true))
    ∧ (∀ rest, (s.inputs = [] ∨ (∃ e, s.inputs = .tick e :: rest) ∨ ∃ w a, s.inputs = .read w a :: rest) →
      t.blk.errCmd = s.blk.errCmd ∧ t.blk.errBusy = s.blk.errBusy)

/-- R271, R272, R278: the error flags are sticky and independent. A flag that is 1 stays 1 until a STATUS write with its
own bit set, or rst. -/
def Obligations.ErrorFlagsAreSticky : Prop :=
  ∀ s t : State, s.rst = false → step s = .next t → (∀ rest, s.inputs ≠ .rst true :: rest) →
    (s.blk.errCmd = true → t.blk.errCmd = true
      ∨ ∃ v rest, s.inputs = .write 8 regStatus v :: rest ∧ v.getLsbD 5 = true)
    ∧ (s.blk.errBusy = true → t.blk.errBusy = true
      ∨ ∃ v rest, s.inputs = .write 8 regStatus v :: rest ∧ v.getLsbD 4 = true)

/-- R305, R103: a host that waits for BUSY = 0 before it writes CMD, DATA or CONFIG, and writes only legal commands, never
sets an error flag. -/
def Obligations.RespectfulHostCausesNoError : Prop :=
  ∀ (s t : State) (i : Input) (rest : List Input),
    s.rst = false → s.inputs = i :: rest → i.respectful s.blk = true → step s = .next t →
    (t.blk.errBusy = true → s.blk.errBusy = true) ∧ (t.blk.errCmd = true → s.blk.errCmd = true)

/-- R112: no write of a pseudo-instruction's expansion is rejected when it starts on an IDLE block, however the host
spaces its accesses and whatever the line does: every access is made, and no error flag is set. -/
def Obligations.PseudoInstructionsAreNotRejected : Prop :=
  ∀ (p : Pseudo) (gaps : List (List (List Bool))) (s : State) (rest : List Input),
    s.ready = true → s.inputs = hostInputs p.expand gaps ++ rest →
    ∃ t, Host.Core.run Sys2Proof.core (hostInputs p.expand gaps).length s = .next t
      ∧ (show State from t).inputs = rest
      ∧ ((show State from t).blk.errBusy = true → s.blk.errBusy = true)
      ∧ ((show State from t).blk.errCmd = true → s.blk.errCmd = true)

/-! ### Reset input -/

/-- R54: the reset value of every state element, and what the outside sees of it. -/
def Obligations.ResetValues : Prop :=
  State.reset.blk = Block.reset
  ∧ Block.reset = {
      ph := .idle, tmr := 0#10, cnt := 0#9, dur := 0#8, idx := 0#3, op := 0#3, data := 0x00#8,
      presence := false, errBusy := false, errCmd := false, pullupEn := false, pcnt := 0#9, rdur := 0x00#8 }
  ∧ Block.reset.busy = false ∧ Block.reset.driveLow = false ∧ Block.reset.pullupOut = false
  ∧ ∀ free a, Block.reset.readReg free a = 0x00#8

/-- R300, R301: at power-on the block is in its reset state, IDLE with the line released, the pull-up disabled and every
register 0x00; rst sets that state at once, from any state, so a command in progress ends with no result. While it is 1,
ticks leave it, writes are ignored and raise nothing, and reads return the reset values. Back at 0, the next tick is an
IDLE tick. -/
def Obligations.RstAbortsAndHolds : Prop :=
  (State.reset.blk = Block.reset ∧ Block.reset.ph = .idle ∧ Block.reset.driveLow = false
    ∧ Block.reset.pullupOut = false ∧ ∀ free a, Block.reset.readReg free a = 0x00#8)
  ∧ (∀ (s : State) (rest : List Input), s.cfg.ok = true → s.inputs = .rst true :: rest →
    step s = .next { s with inputs := rest, rst := true, blk := Block.reset })
  ∧ (∀ (s : State) (rest : List Input), s.cfg.ok = true → s.rst = true → s.blk = Block.reset →
    (∀ e, s.inputs = .tick e :: rest → step s = .next (s.setInputs rest))
    ∧ (∀ a v, s.inputs = .write 8 a v :: rest → step s = .next (s.setInputs rest))
    ∧ (∀ a, s.inputs = .read 8 a :: rest →
        ∃ t, step s = .next t ∧ t.blk = Block.reset ∧ t.rst = true ∧ t.rdata = 0x00#8)
    ∧ (s.inputs = .rst false :: rest → step s = .next { s with inputs := rest, rst := false }))
  ∧ ∀ (cfg : Params) (e : Bool), Block.reset.tick cfg e = Block.reset ∧ Block.reset.driveLow = false

/-! ### The line -/

/-- R142, R143: the block pulls the line low in RST_LOW, WR_LOW and RD_LOW and in no other phase; a driven line is low, a
released one is the environment's. -/
def Obligations.LineIsDrivenInThreePhases : Prop :=
  ∀ (b : Block) (env : Bool),
    (b.driveLow = true ↔ b.ph = .rstLow ∨ b.ph = .wrLow ∨ b.ph = .rdLow)
    ∧ (b.driveLow = true → b.line env = false) ∧ (b.driveLow = false → b.line env = env)

/-- R152: outside RST_SAMP and RD_MEAS the line's level changes nothing. -/
def Obligations.LineIsUsedInTwoPhases : Prop :=
  ∀ (cfg : Params) (b : Block) (e e' : Bool), b.ph ≠ .rstSamp → b.ph ≠ .rdMeas → b.tick cfg e = b.tick cfg e'

/-- R147: a tick in IDLE changes nothing of the block. -/
def Obligations.IdleTickChangesNothing : Prop :=
  ∀ (s : State) (e : Bool) (rest : List Input), s.cfg.ok = true → s.rst = false → s.blk.ph = .idle →
    s.inputs = .tick e :: rest → step s = .next (s.setInputs rest)

/-- The frame of a tick: it writes no error flag, no PULLUP_EN and no op; PRESENCE and PCNT only at the last tick of the
presence window; DATA only at the tick that ends a measurement, and then only the bit of the slot; RDUR only at that tick
or, under the other reading of log 22, at the last tick of a read command. -/
def Obligations.TickFrame : Prop :=
  ∀ (cfg : Params) (e : Bool) (b : Block),
    (b.tick cfg e).errBusy = b.errBusy ∧ (b.tick cfg e).errCmd = b.errCmd
    ∧ (b.tick cfg e).pullupEn = b.pullupEn ∧ (b.tick cfg e).op = b.op
    ∧ (¬ (b.ph = .rstSamp ∧ b.tmr = 1#10) →
        (b.tick cfg e).presence = b.presence ∧ (b.tick cfg e).pcnt = b.pcnt)
    ∧ (¬ (b.ph = .rdMeas ∧ e = true) → (b.tick cfg e).data = b.data)
    ∧ (cfg.rdurTime = .atMeasurement → ¬ (b.ph = .rdMeas ∧ e = true) → (b.tick cfg e).rdur = b.rdur)
    ∧ (cfg.rdurTime = .atCommandEnd →
        ¬ ((b.ph = .rdMeas ∧ e = true ∨ b.ph = .rdPad ∧ b.tmr = 1#10) ∧ (b.tick cfg e).ph = .idle) →
        (b.tick cfg e).rdur = b.rdur)
    ∧ ∀ j, j ≠ b.idx.toNat → (b.tick cfg e).data.getLsbD j = b.data.getLsbD j

/-- R38: PRESENCE and PCNT change only at the last tick of RESET's window, or by rst. -/
def Obligations.OnlyResetCommandWritesPresence : Prop :=
  ∀ s t : State, step s = .next t →
    (t.blk.presence = s.blk.presence ∧ t.blk.pcnt = s.blk.pcnt)
    ∨ s.rst = true ∨ (∃ rest, s.inputs = .rst true :: rest)
    ∨ (s.blk.ph = .rstSamp ∧ s.blk.tmr = 1#10 ∧ t.blk.ph = .idle
        ∧ (s.inputs = [] ∨ ∃ e rest, s.inputs = .tick e :: rest))

/-- R33, R41, R75: the pull-up output is CONFIG.PULLUP_EN, and only a CONFIG write on an idle block, or rst, changes it. -/
def Obligations.OnlyConfigWritesPullup : Prop :=
  ∀ s t : State, step s = .next t →
    t.blk.pullupOut = t.blk.pullupEn
    ∧ (t.blk.pullupEn = s.blk.pullupEn
      ∨ s.rst = true ∨ (∃ rest, s.inputs = .rst true :: rest)
      ∨ (s.blk.busy = false ∧ ∃ v rest, s.inputs = .write 8 regConfig v :: rest ∧ t.blk.pullupEn = v.getLsbD 0))

/-! ### Commands from their CMD write to their end -/

/-- R173: a write slot drives the line low for exactly L ticks and lasts max(L, T_SLOT) + T_REC, whatever the line does;
then the slot is finished. -/
def Obligations.WriteSlotWaveform : Prop :=
  ∀ (cfg : Params) (b : Block) (envs : List Bool),
    cfg.ok = true → b.ph = .wrLow →
    let low := if b.data.getLsbD b.idx.toNat then cfg.tW1l else cfg.tW0l
    b.tmr.toNat = low → envs.length = max low cfg.tSlot + cfg.tRec →
    (∀ k, k < envs.length →
      (b.ticks cfg (envs.take k)).busy = true ∧ (b.ticks cfg (envs.take k)).driveLow = decide (k < low))
    ∧ b.ticks cfg envs = Block.finishSlot cfg { b with ph := .wrHigh, tmr := 1#10 }

/-- R223, R225, R221, R222: RESET. From its acceptance on a ready block it lasts T_RSTL + T_PDW ticks whatever the line does, driving
low the first T_RSTL; at its end PCNT is the number of low ticks of the window, PRESENCE whether that is within P_MIN and
P_MAX, and DATA, RDUR, PULLUP_EN and the error flags are unchanged. -/
def Obligations.ResetMeasuresPresence : Prop :=
  ∀ (s : State) (envs : List Bool),
    s.ready = true → envs.length = s.cfg.tRstl + s.cfg.tPdw →
    ∃ t, exec .reset s = .next t
      ∧ (∀ k, k < envs.length →
          (t.blk.ticks s.cfg (envs.take k)).busy = true
          ∧ (t.blk.ticks s.cfg (envs.take k)).driveLow = decide (k < s.cfg.tRstl)
          ∧ (t.blk.ticks s.cfg (envs.take k)).presence = s.blk.presence
          ∧ (t.blk.ticks s.cfg (envs.take k)).pcnt = s.blk.pcnt)
      ∧ (let e := t.blk.ticks s.cfg envs
         let c := (envs.drop s.cfg.tRstl).count false
         e.busy = false ∧ e.pcnt.toNat = c ∧ e.presence = (decide (s.cfg.pMin ≤ c) && decide (c ≤ s.cfg.pMax))
         ∧ e.data = s.blk.data ∧ e.rdur = s.blk.rdur ∧ e.pullupEn = s.blk.pullupEn
         ∧ e.errBusy = s.blk.errBusy ∧ e.errCmd = s.blk.errCmd)

/-- R172: WRITE_BIT. One write slot with DATA[0]: low for L ticks, then released, in all L + sat_sub(T_SLOT, L) + T_REC,
whatever the line does, with every register but STATUS.BUSY unchanged throughout. -/
def Obligations.WriteBitSendsOneSlot : Prop :=
  ∀ (s : State) (envs : List Bool), s.ready = true →
    let low := if s.blk.data.getLsbD 0 then s.cfg.tW1l else s.cfg.tW0l
    envs.length = low + (s.cfg.tSlot - low) + s.cfg.tRec →
    ∃ t, exec .writeBit s = .next t
      ∧ (∀ k, k < envs.length →
          (t.blk.ticks s.cfg (envs.take k)).busy = true
          ∧ (t.blk.ticks s.cfg (envs.take k)).driveLow = decide (k < low))
      ∧ (t.blk.ticks s.cfg envs).busy = false
      ∧ ∀ k, let e := t.blk.ticks s.cfg (envs.take k)
          e.data = s.blk.data ∧ e.rdur = s.blk.rdur ∧ e.presence = s.blk.presence ∧ e.pcnt = s.blk.pcnt
          ∧ e.pullupEn = s.blk.pullupEn ∧ e.errBusy = s.blk.errBusy ∧ e.errCmd = s.blk.errCmd

/-- R180, R181: READ_BIT. On a line low for d ticks after release and then high, the slot lasts T_RDL + d + 1 + pad ticks
with the first T_RDL driven low; at its end DATA is the bit, d < T_RTH, zero-extended, RDUR is d saturated at 255, and
every other register is unchanged. -/
def Obligations.ReadBitMeasuresOneSlot : Prop :=
  ∀ (s : State) (d : Nat) (envs : List Bool), s.ready = true → IsReadSlot s.cfg d envs →
    ∃ t, exec .readBit s = .next t
      ∧ envs.length = s.cfg.tRdl + (d + 1)
          + (if d < s.cfg.tRth then s.cfg.tRp1 - d else s.cfg.tRp0 - d)
      ∧ (∀ k, k < envs.length →
          (t.blk.ticks s.cfg (envs.take k)).busy = true
          ∧ (t.blk.ticks s.cfg (envs.take k)).driveLow = decide (k < s.cfg.tRdl))
      ∧ (let e := t.blk.ticks s.cfg envs
         e.busy = false ∧ e.data = (if d < s.cfg.tRth then 0x01#8 else 0x00#8) ∧ e.rdur.toNat = min d 255
         ∧ e.presence = s.blk.presence ∧ e.pcnt = s.blk.pcnt ∧ e.pullupEn = s.blk.pullupEn
         ∧ e.errBusy = s.blk.errBusy ∧ e.errCmd = s.blk.errCmd)

/-- R201, R200: WRITE_BYTE. Eight write slots back to back, slot i with DATA[i], whatever the line does: `writeSlotStart`
is the sum of the lengths of the slots before. DATA and every other register but STATUS.BUSY stay throughout. -/
def Obligations.WriteByteSendsEightSlots : Prop :=
  ∀ (s : State) (envs : List Bool), s.ready = true → envs.length = writeByteTicks s.cfg s.blk.data →
    ∃ t, exec .writeByte s = .next t
      ∧ (∀ i k, i < 8 →
          let low := if s.blk.data.getLsbD i then s.cfg.tW1l else s.cfg.tW0l
          k < low + (s.cfg.tSlot - low) + s.cfg.tRec →
          (t.blk.ticks s.cfg (envs.take (writeSlotStart s.cfg s.blk.data i + k))).busy = true
          ∧ (t.blk.ticks s.cfg (envs.take (writeSlotStart s.cfg s.blk.data i + k))).driveLow = decide (k < low))
      ∧ (t.blk.ticks s.cfg envs).busy = false
      ∧ ∀ k, let e := t.blk.ticks s.cfg (envs.take k)
          e.data = s.blk.data ∧ e.rdur = s.blk.rdur ∧ e.presence = s.blk.presence ∧ e.pcnt = s.blk.pcnt
          ∧ e.pullupEn = s.blk.pullupEn ∧ e.errBusy = s.blk.errBusy ∧ e.errCmd = s.blk.errCmd

/-- R202, R200: READ_BYTE. Eight read slots back to back, slot i measuring d_i: DATA[i] is d_i < T_RTH, whatever DATA was
before, RDUR is the eighth duration saturated at 255, and every other register is unchanged. -/
def Obligations.ReadByteMeasuresEightSlots : Prop :=
  ∀ (s : State) (slots : List (Nat × List Bool)),
    s.ready = true → slots.length = 8 → (∀ p ∈ slots, IsReadSlot s.cfg p.1 p.2) →
    ∃ t, exec .readByte s = .next t
      ∧ (∀ i p k, slots[i]? = some p → k < p.2.length →
          let e := t.blk.ticks s.cfg ((slots.take i).flatMap Prod.snd ++ p.2.take k)
          e.busy = true ∧ e.driveLow = decide (k < s.cfg.tRdl))
      ∧ (let e := t.blk.ticks s.cfg (slots.flatMap Prod.snd)
         e.busy = false
         ∧ (∀ i p, slots[i]? = some p → e.data.getLsbD i = decide (p.1 < s.cfg.tRth))
         ∧ (∀ p, slots[7]? = some p → e.rdur.toNat = min p.1 255)
         ∧ e.presence = s.blk.presence ∧ e.pcnt = s.blk.pcnt ∧ e.pullupEn = s.blk.pullupEn
         ∧ e.errBusy = s.blk.errBusy ∧ e.errCmd = s.blk.errCmd)

/-- R205: a WRITE_BYTE of any byte and then a READ_BYTE, under the loopback fixture LB and with R7's parameters, leave
that byte in DATA, whenever RDUR is written (log 22). -/
def Obligations.LoopbackRoundTrip : Prop :=
  ∀ s : State, s.ready = true → s.cfg = { Params.default with rdurTime := s.cfg.rdurTime } →
    ∃ w, exec .writeByte s = .next w
      ∧ (let sent := w.blk.ticks s.cfg (List.replicate (writeByteTicks s.cfg s.blk.data) true)
         let answers := (List.range 8).flatMap fun j => loopbackAnswers s.cfg (loopbackRecords s.cfg w.blk j)
         ∃ r, exec .readByte (w.setBlk sent) = .next r
           ∧ (r.blk.ticks s.cfg answers).busy = false
           ∧ (r.blk.ticks s.cfg answers).data = s.blk.data)

/-- R202, R180: what a read command leaves does not depend on what DATA held: two states that differ only there are the
same once the command is accepted. -/
def Obligations.ReadResultForgetsData : Prop :=
  ∀ (s : State) (v : Byte) (i : Instr), s.ready = true → (i = .readBit ∨ i = .readByte) →
    exec i (s.setBlk { s.blk with data := v }) = exec i s

/-- R182: in RD_MEAS, as long as the line is low, the slot goes on: `dur` counts and saturates at 255, nothing else
changes, BUSY stays 1 and no command is accepted. -/
def Obligations.StuckLowLineHangs : Prop :=
  ∀ (s : State) (n : Nat), s.cfg.ok = true → s.rst = false → s.blk.ph = .rdMeas →
    let b := s.blk.ticks s.cfg (List.replicate n false)
    b = { s.blk with dur := BitVec.ofNat 8 (min (s.blk.dur.toNat + n) 255) }
    ∧ b.busy = true
    ∧ ∀ i, exec i (s.setBlk b) = .next (s.setBlk { b with errBusy := true })

/-- R178: the pad for each bit, never negative; the saturation of `dur` changes neither the bit nor the pad; and the pads
with R7's values. -/
def Obligations.SaturationChangesNoResult : Prop :=
  (∀ (cfg : Params) (d : Nat), readPad cfg true d = cfg.tRp1 - d ∧ readPad cfg false d = cfg.tRp0 - d)
  ∧ (∀ (cfg : Params) (d : Nat), cfg.ok = true →
    classify cfg (min d 255) = classify cfg d
    ∧ readPad cfg (classify cfg (min d 255)) (min d 255) = readPad cfg (classify cfg d) d)
  ∧ ∀ d : Nat,
    (d ≤ 14 → readPad Params.default (classify Params.default d) d = 56 - d ∧ 0 < 56 - d)
    ∧ (15 ≤ d → d ≤ 50 → readPad Params.default (classify Params.default d) d = 51 - d)
    ∧ (51 ≤ d → readPad Params.default (classify Params.default d) d = 0)

/-- R313, R204, R173, R181, R225: the durations of the commands in ticks with R7's parameters. -/
def Obligations.CommandDurations : Prop :=
  resetTicks Params.default = 980
  ∧ writeSlotTicks Params.default true = 61 ∧ writeSlotTicks Params.default false = 62
  ∧ (∀ v : Byte, writeByteTicks Params.default v + (List.range 8).countP (fun i => v.getLsbD i) = 496)
  ∧ ∀ d : Nat, readSlotTicks Params.default d = if d ≤ 14 then 59 else if d ≤ 51 then 54 else d + 3

/-- R150: every command but a read ends. From any state of a run in a phase of RESET, WRITE_BIT or WRITE_BYTE, the block
is IDLE after at most the longest of them, whatever the line does. -/
def Obligations.CommandsButReadsEnd : Prop :=
  ∀ (cfg : Params) (b : Block) (envs : List Bool),
    cfg.ok = true → b.Inv cfg → b.ph ≠ .rdLow → b.ph ≠ .rdMeas → b.ph ≠ .rdPad →
    max (resetTicks cfg) (8 * max (writeSlotTicks cfg true) (writeSlotTicks cfg false)) ≤ envs.length →
    (b.ticks cfg envs).ph = .idle

/-! ### Whole-machine properties -/

/-- R54, R303: the invariant holds of the reset state. -/
def Obligations.ResetMeetsInvariant : Prop :=
  State.reset.Inv

/-- Every step keeps the invariant: the timer inside its phase (R45), the window count within T_PDW (R46), PRESENCE in
agreement with PCNT (R222), the phase one of the command's (R148), idx 0 in bit commands (R48), the unread bits of DATA 0
(R144), the reset state held by rst (R300). -/
def Obligations.StepKeepsInvariant : Prop :=
  ∀ s t : State, s.Inv → step s = .next t → t.Inv

/-- R76, R184: no host access changes a running command. Whatever reads and writes come between the ticks of a list, as
long as the command runs, the block ends as the ticks alone leave it, but for the two error flags. -/
def Obligations.HostCannotDisturbACommand : Prop :=
  ∀ (s : State) (l rest : List Input),
    s.cfg.ok = true → s.rst = false → s.inputs = l ++ rest → (∀ i ∈ l, i.ordinary = true) →
    (∀ k, (s.blk.ticks s.cfg ((envLevels l).take k)).busy = true) →
    ∃ t, Host.Core.run Sys2Proof.core l.length s = .next t
      ∧ (show State from t).inputs = rest
      ∧ (show State from t).blk.withoutErrors = (s.blk.ticks s.cfg (envLevels l)).withoutErrors

/-! ### When results are written -/

/-- R149: the results a host can see are written in the last tick of a command. A tick that changes PRESENCE or PCNT ends
the command, and so does one that changes RDUR under the reading of R149 and R306; under the other reading, R176's, RDUR
takes `dur` at the tick that ends a measurement and at no other. Which of the two readings holds is the model's
parameter of log 22: the spec's rules disagree. -/
def Obligations.ResultsAreWrittenInTheLastTick : Prop :=
  ∀ (cfg : Params) (e : Bool) (b : Block),
    ((b.tick cfg e).presence ≠ b.presence → b.busy = true ∧ (b.tick cfg e).busy = false)
    ∧ ((b.tick cfg e).pcnt ≠ b.pcnt → b.busy = true ∧ (b.tick cfg e).busy = false)
    ∧ (cfg.rdurTime = .atCommandEnd → (b.tick cfg e).rdur ≠ b.rdur →
        b.busy = true ∧ (b.tick cfg e).busy = false ∧ (b.tick cfg e).rdur = b.dur)
    ∧ (cfg.rdurTime = .atMeasurement →
        (b.tick cfg e).rdur = if b.ph = .rdMeas ∧ e = true then b.dur else b.rdur)

/-- R306, R77: while a command runs, from its acceptance on, STATUS.PRESENCE, PCNT_LO and PCNT_HI read as before it, a DATA
read gives the free value, and RDUR reads as before it too under the reading of R149 and R306 (the model's parameter of
log 22). Under the other reading, R176's, RDUR does so in a command that reads nothing, and in a read command until its
first measurement is over. -/
def Obligations.RunningCommandShowsOldResults : Prop :=
  ∀ (s : State) (i : Instr) (envs : List Bool), s.ready = true →
    ∃ t, exec i s = .next t ∧
      let b := t.blk.ticks s.cfg envs
      b.busy = true → ∀ free,
        (b.readReg free regStatus).getLsbD 1 = (s.blk.readReg free regStatus).getLsbD 1
        ∧ b.readReg free regPcntLo = s.blk.readReg free regPcntLo
        ∧ b.readReg free regPcntHi = s.blk.readReg free regPcntHi
        ∧ b.readReg free regData = free
        ∧ (s.cfg.rdurTime = .atCommandEnd ∨ (i ≠ .readBit ∧ i ≠ .readByte) ∨ (b.idx = 0#3 ∧ b.ph ≠ .rdPad) →
            b.readReg free regRdur = s.blk.readReg free regRdur)

/-- R43, R202, R176: RDUR after each slot of a READ_BYTE, under the reading of R176 (the model's parameter of log 22, and
its default): after any number of complete slots, one to eight, it is the duration of the last of them saturated at 255,
and, but for the eighth, the command still runs. -/
def Obligations.RdurHoldsTheLastSlot : Prop :=
  ∀ (s : State) (slots : List (Nat × List Bool)) (p : Nat × List Bool),
    s.ready = true → s.cfg.rdurTime = .atMeasurement → slots.length ≤ 8 → slots.getLast? = some p →
    (∀ q ∈ slots, IsReadSlot s.cfg q.1 q.2) →
    ∃ t, exec .readByte s = .next t
      ∧ ∀ free, (t.blk.ticks s.cfg (slots.flatMap Prod.snd)).readReg free regRdur = BitVec.ofNat 8 (min p.1 255)
        ∧ (t.blk.ticks s.cfg (slots.flatMap Prod.snd)).busy = decide (slots.length < 8)
end

