-- ==== Sys2Proof/Laws/State.lean ====
section
/-! SUPPORT. One lemma per field per update of the state and the block, each true by unfolding once, so that no later
proof unfolds a record update. -/

namespace Sys2Proof.Machine

/-! ### State.setBlk -/

@[simp] theorem State.setBlk_cfg (s : State) (b : Block) : (s.setBlk b).cfg = s.cfg := rfl
@[simp] theorem State.setBlk_blk (s : State) (b : Block) : (s.setBlk b).blk = b := rfl
@[simp] theorem State.setBlk_rst (s : State) (b : Block) : (s.setBlk b).rst = s.rst := rfl
@[simp] theorem State.setBlk_rdata (s : State) (b : Block) : (s.setBlk b).rdata = s.rdata := rfl
@[simp] theorem State.setBlk_inputs (s : State) (b : Block) : (s.setBlk b).inputs = s.inputs := rfl
@[simp] theorem State.setBlk_draws (s : State) (b : Block) : (s.setBlk b).draws = s.draws := rfl

/-! ### State.setRst -/

@[simp] theorem State.setRst_cfg (s : State) (l : Bool) : (s.setRst l).cfg = s.cfg := rfl
@[simp] theorem State.setRst_blk (s : State) (l : Bool) : (s.setRst l).blk = s.blk := rfl
@[simp] theorem State.setRst_rst (s : State) (l : Bool) : (s.setRst l).rst = l := rfl
@[simp] theorem State.setRst_rdata (s : State) (l : Bool) : (s.setRst l).rdata = s.rdata := rfl
@[simp] theorem State.setRst_inputs (s : State) (l : Bool) : (s.setRst l).inputs = s.inputs := rfl
@[simp] theorem State.setRst_draws (s : State) (l : Bool) : (s.setRst l).draws = s.draws := rfl

/-! ### State.setRdata -/

@[simp] theorem State.setRdata_cfg (s : State) (v : Byte) : (s.setRdata v).cfg = s.cfg := rfl
@[simp] theorem State.setRdata_blk (s : State) (v : Byte) : (s.setRdata v).blk = s.blk := rfl
@[simp] theorem State.setRdata_rst (s : State) (v : Byte) : (s.setRdata v).rst = s.rst := rfl
@[simp] theorem State.setRdata_rdata (s : State) (v : Byte) : (s.setRdata v).rdata = v := rfl
@[simp] theorem State.setRdata_inputs (s : State) (v : Byte) : (s.setRdata v).inputs = s.inputs := rfl
@[simp] theorem State.setRdata_draws (s : State) (v : Byte) : (s.setRdata v).draws = s.draws := rfl

/-! ### State.setInputs -/

@[simp] theorem State.setInputs_cfg (s : State) (l : List Input) : (s.setInputs l).cfg = s.cfg := rfl
@[simp] theorem State.setInputs_blk (s : State) (l : List Input) : (s.setInputs l).blk = s.blk := rfl
@[simp] theorem State.setInputs_rst (s : State) (l : List Input) : (s.setInputs l).rst = s.rst := rfl
@[simp] theorem State.setInputs_rdata (s : State) (l : List Input) : (s.setInputs l).rdata = s.rdata := rfl
@[simp] theorem State.setInputs_inputs (s : State) (l : List Input) : (s.setInputs l).inputs = l := rfl
@[simp] theorem State.setInputs_draws (s : State) (l : List Input) : (s.setInputs l).draws = s.draws := rfl

/-! ### State.nextDraw -/

@[simp] theorem State.nextDraw_cfg (s : State) : (s.nextDraw).cfg = s.cfg := rfl
@[simp] theorem State.nextDraw_blk (s : State) : (s.nextDraw).blk = s.blk := rfl
@[simp] theorem State.nextDraw_rst (s : State) : (s.nextDraw).rst = s.rst := rfl
@[simp] theorem State.nextDraw_rdata (s : State) : (s.nextDraw).rdata = s.rdata := rfl
@[simp] theorem State.nextDraw_inputs (s : State) : (s.nextDraw).inputs = s.inputs := rfl
@[simp] theorem State.nextDraw_draws (s : State) : (s.nextDraw).draws = s.draws + 1 := rfl

/-! ### Block.enter -/

@[simp] theorem Block.enter_ph (b : Block) (p : Phase) (n : Nat) : (b.enter p n).ph = p := rfl
@[simp] theorem Block.enter_tmr (b : Block) (p : Phase) (n : Nat) : (b.enter p n).tmr = BitVec.ofNat 10 n := rfl
@[simp] theorem Block.enter_cnt (b : Block) (p : Phase) (n : Nat) : (b.enter p n).cnt = b.cnt := rfl
@[simp] theorem Block.enter_dur (b : Block) (p : Phase) (n : Nat) : (b.enter p n).dur = b.dur := rfl
@[simp] theorem Block.enter_idx (b : Block) (p : Phase) (n : Nat) : (b.enter p n).idx = b.idx := rfl
@[simp] theorem Block.enter_op (b : Block) (p : Phase) (n : Nat) : (b.enter p n).op = b.op := rfl
@[simp] theorem Block.enter_data (b : Block) (p : Phase) (n : Nat) : (b.enter p n).data = b.data := rfl
@[simp] theorem Block.enter_presence (b : Block) (p : Phase) (n : Nat) : (b.enter p n).presence = b.presence := rfl
@[simp] theorem Block.enter_errBusy (b : Block) (p : Phase) (n : Nat) : (b.enter p n).errBusy = b.errBusy := rfl
@[simp] theorem Block.enter_errCmd (b : Block) (p : Phase) (n : Nat) : (b.enter p n).errCmd = b.errCmd := rfl
@[simp] theorem Block.enter_pullupEn (b : Block) (p : Phase) (n : Nat) : (b.enter p n).pullupEn = b.pullupEn := rfl
@[simp] theorem Block.enter_pcnt (b : Block) (p : Phase) (n : Nat) : (b.enter p n).pcnt = b.pcnt := rfl
@[simp] theorem Block.enter_rdur (b : Block) (p : Phase) (n : Nat) : (b.enter p n).rdur = b.rdur := rfl

/-! ### Block.countDown -/

@[simp] theorem Block.countDown_ph (b : Block) : (b.countDown).ph = b.ph := rfl
@[simp] theorem Block.countDown_tmr (b : Block) : (b.countDown).tmr = b.tmr - 1#10 := rfl
@[simp] theorem Block.countDown_cnt (b : Block) : (b.countDown).cnt = b.cnt := rfl
@[simp] theorem Block.countDown_dur (b : Block) : (b.countDown).dur = b.dur := rfl
@[simp] theorem Block.countDown_idx (b : Block) : (b.countDown).idx = b.idx := rfl
@[simp] theorem Block.countDown_op (b : Block) : (b.countDown).op = b.op := rfl
@[simp] theorem Block.countDown_data (b : Block) : (b.countDown).data = b.data := rfl
@[simp] theorem Block.countDown_presence (b : Block) : (b.countDown).presence = b.presence := rfl
@[simp] theorem Block.countDown_errBusy (b : Block) : (b.countDown).errBusy = b.errBusy := rfl
@[simp] theorem Block.countDown_errCmd (b : Block) : (b.countDown).errCmd = b.errCmd := rfl
@[simp] theorem Block.countDown_pullupEn (b : Block) : (b.countDown).pullupEn = b.pullupEn := rfl
@[simp] theorem Block.countDown_pcnt (b : Block) : (b.countDown).pcnt = b.pcnt := rfl
@[simp] theorem Block.countDown_rdur (b : Block) : (b.countDown).rdur = b.rdur := rfl

/-! ### Block.toIdle -/

@[simp] theorem Block.toIdle_ph (b : Block) : (b.toIdle).ph = .idle := rfl
@[simp] theorem Block.toIdle_tmr (b : Block) : (b.toIdle).tmr = b.tmr := rfl
@[simp] theorem Block.toIdle_cnt (b : Block) : (b.toIdle).cnt = b.cnt := rfl
@[simp] theorem Block.toIdle_dur (b : Block) : (b.toIdle).dur = b.dur := rfl
@[simp] theorem Block.toIdle_idx (b : Block) : (b.toIdle).idx = b.idx := rfl
@[simp] theorem Block.toIdle_op (b : Block) : (b.toIdle).op = b.op := rfl
@[simp] theorem Block.toIdle_data (b : Block) : (b.toIdle).data = b.data := rfl
@[simp] theorem Block.toIdle_presence (b : Block) : (b.toIdle).presence = b.presence := rfl
@[simp] theorem Block.toIdle_errBusy (b : Block) : (b.toIdle).errBusy = b.errBusy := rfl
@[simp] theorem Block.toIdle_errCmd (b : Block) : (b.toIdle).errCmd = b.errCmd := rfl
@[simp] theorem Block.toIdle_pullupEn (b : Block) : (b.toIdle).pullupEn = b.pullupEn := rfl
@[simp] theorem Block.toIdle_pcnt (b : Block) : (b.toIdle).pcnt = b.pcnt := rfl
@[simp] theorem Block.toIdle_rdur (b : Block) : (b.toIdle).rdur = b.rdur := rfl

/-! ### Block.startCommand -/

@[simp] theorem Block.startCommand_ph (b : Block) (i : Instr) : (b.startCommand i).ph = b.ph := rfl
@[simp] theorem Block.startCommand_tmr (b : Block) (i : Instr) : (b.startCommand i).tmr = b.tmr := rfl
@[simp] theorem Block.startCommand_cnt (b : Block) (i : Instr) : (b.startCommand i).cnt = b.cnt := rfl
@[simp] theorem Block.startCommand_dur (b : Block) (i : Instr) : (b.startCommand i).dur = b.dur := rfl
@[simp] theorem Block.startCommand_idx (b : Block) (i : Instr) : (b.startCommand i).idx = 0#3 := rfl
@[simp] theorem Block.startCommand_op (b : Block) (i : Instr) : (b.startCommand i).op = i.opcode := rfl
@[simp] theorem Block.startCommand_data (b : Block) (i : Instr) : (b.startCommand i).data = b.data := rfl
@[simp] theorem Block.startCommand_presence (b : Block) (i : Instr) : (b.startCommand i).presence = b.presence := rfl
@[simp] theorem Block.startCommand_errBusy (b : Block) (i : Instr) : (b.startCommand i).errBusy = b.errBusy := rfl
@[simp] theorem Block.startCommand_errCmd (b : Block) (i : Instr) : (b.startCommand i).errCmd = b.errCmd := rfl
@[simp] theorem Block.startCommand_pullupEn (b : Block) (i : Instr) : (b.startCommand i).pullupEn = b.pullupEn := rfl
@[simp] theorem Block.startCommand_pcnt (b : Block) (i : Instr) : (b.startCommand i).pcnt = b.pcnt := rfl
@[simp] theorem Block.startCommand_rdur (b : Block) (i : Instr) : (b.startCommand i).rdur = b.rdur := rfl

/-! ### Block.clearData -/

@[simp] theorem Block.clearData_ph (b : Block) : (b.clearData).ph = b.ph := rfl
@[simp] theorem Block.clearData_tmr (b : Block) : (b.clearData).tmr = b.tmr := rfl
@[simp] theorem Block.clearData_cnt (b : Block) : (b.clearData).cnt = b.cnt := rfl
@[simp] theorem Block.clearData_dur (b : Block) : (b.clearData).dur = b.dur := rfl
@[simp] theorem Block.clearData_idx (b : Block) : (b.clearData).idx = b.idx := rfl
@[simp] theorem Block.clearData_op (b : Block) : (b.clearData).op = b.op := rfl
@[simp] theorem Block.clearData_data (b : Block) : (b.clearData).data = 0x00#8 := rfl
@[simp] theorem Block.clearData_presence (b : Block) : (b.clearData).presence = b.presence := rfl
@[simp] theorem Block.clearData_errBusy (b : Block) : (b.clearData).errBusy = b.errBusy := rfl
@[simp] theorem Block.clearData_errCmd (b : Block) : (b.clearData).errCmd = b.errCmd := rfl
@[simp] theorem Block.clearData_pullupEn (b : Block) : (b.clearData).pullupEn = b.pullupEn := rfl
@[simp] theorem Block.clearData_pcnt (b : Block) : (b.clearData).pcnt = b.pcnt := rfl
@[simp] theorem Block.clearData_rdur (b : Block) : (b.clearData).rdur = b.rdur := rfl

/-! ### Block.storeSlotBit -/

@[simp] theorem Block.storeSlotBit_ph (b : Block) (x : Bool) : (b.storeSlotBit x).ph = b.ph := rfl
@[simp] theorem Block.storeSlotBit_tmr (b : Block) (x : Bool) : (b.storeSlotBit x).tmr = b.tmr := rfl
@[simp] theorem Block.storeSlotBit_cnt (b : Block) (x : Bool) : (b.storeSlotBit x).cnt = b.cnt := rfl
@[simp] theorem Block.storeSlotBit_dur (b : Block) (x : Bool) : (b.storeSlotBit x).dur = b.dur := rfl
@[simp] theorem Block.storeSlotBit_idx (b : Block) (x : Bool) : (b.storeSlotBit x).idx = b.idx := rfl
@[simp] theorem Block.storeSlotBit_op (b : Block) (x : Bool) : (b.storeSlotBit x).op = b.op := rfl
@[simp] theorem Block.storeSlotBit_data (b : Block) (x : Bool) : (b.storeSlotBit x).data = setBit b.data b.idx x := rfl
@[simp] theorem Block.storeSlotBit_presence (b : Block) (x : Bool) : (b.storeSlotBit x).presence = b.presence := rfl
@[simp] theorem Block.storeSlotBit_errBusy (b : Block) (x : Bool) : (b.storeSlotBit x).errBusy = b.errBusy := rfl
@[simp] theorem Block.storeSlotBit_errCmd (b : Block) (x : Bool) : (b.storeSlotBit x).errCmd = b.errCmd := rfl
@[simp] theorem Block.storeSlotBit_pullupEn (b : Block) (x : Bool) : (b.storeSlotBit x).pullupEn = b.pullupEn := rfl
@[simp] theorem Block.storeSlotBit_pcnt (b : Block) (x : Bool) : (b.storeSlotBit x).pcnt = b.pcnt := rfl
@[simp] theorem Block.storeSlotBit_rdur (b : Block) (x : Bool) : (b.storeSlotBit x).rdur = b.rdur := rfl

/-! ### Block.storeMeasured -/

@[simp] theorem Block.storeMeasured_ph (cfg : Params) (b : Block) : (b.storeMeasured cfg).ph = b.ph := rfl
@[simp] theorem Block.storeMeasured_tmr (cfg : Params) (b : Block) : (b.storeMeasured cfg).tmr = b.tmr := rfl
@[simp] theorem Block.storeMeasured_cnt (cfg : Params) (b : Block) : (b.storeMeasured cfg).cnt = b.cnt := rfl
@[simp] theorem Block.storeMeasured_dur (cfg : Params) (b : Block) : (b.storeMeasured cfg).dur = b.dur := rfl
@[simp] theorem Block.storeMeasured_idx (cfg : Params) (b : Block) : (b.storeMeasured cfg).idx = b.idx := rfl
@[simp] theorem Block.storeMeasured_op (cfg : Params) (b : Block) : (b.storeMeasured cfg).op = b.op := rfl
@[simp] theorem Block.storeMeasured_data (cfg : Params) (b : Block) : (b.storeMeasured cfg).data = setBit b.data b.idx (classify cfg b.dur.toNat) := rfl
@[simp] theorem Block.storeMeasured_presence (cfg : Params) (b : Block) : (b.storeMeasured cfg).presence = b.presence := rfl
@[simp] theorem Block.storeMeasured_errBusy (cfg : Params) (b : Block) : (b.storeMeasured cfg).errBusy = b.errBusy := rfl
@[simp] theorem Block.storeMeasured_errCmd (cfg : Params) (b : Block) : (b.storeMeasured cfg).errCmd = b.errCmd := rfl
@[simp] theorem Block.storeMeasured_pullupEn (cfg : Params) (b : Block) : (b.storeMeasured cfg).pullupEn = b.pullupEn := rfl
@[simp] theorem Block.storeMeasured_pcnt (cfg : Params) (b : Block) : (b.storeMeasured cfg).pcnt = b.pcnt := rfl
@[simp] theorem Block.storeMeasured_rdur (cfg : Params) (b : Block) : (b.storeMeasured cfg).rdur = (if cfg.rdurTime = .atMeasurement then b.dur else b.rdur) := rfl

/-! ### Block.clearErrors -/

@[simp] theorem Block.clearErrors_ph (b : Block) (v : Byte) : (b.clearErrors v).ph = b.ph := rfl
@[simp] theorem Block.clearErrors_tmr (b : Block) (v : Byte) : (b.clearErrors v).tmr = b.tmr := rfl
@[simp] theorem Block.clearErrors_cnt (b : Block) (v : Byte) : (b.clearErrors v).cnt = b.cnt := rfl
@[simp] theorem Block.clearErrors_dur (b : Block) (v : Byte) : (b.clearErrors v).dur = b.dur := rfl
@[simp] theorem Block.clearErrors_idx (b : Block) (v : Byte) : (b.clearErrors v).idx = b.idx := rfl
@[simp] theorem Block.clearErrors_op (b : Block) (v : Byte) : (b.clearErrors v).op = b.op := rfl
@[simp] theorem Block.clearErrors_data (b : Block) (v : Byte) : (b.clearErrors v).data = b.data := rfl
@[simp] theorem Block.clearErrors_presence (b : Block) (v : Byte) : (b.clearErrors v).presence = b.presence := rfl
@[simp] theorem Block.clearErrors_errBusy (b : Block) (v : Byte) : (b.clearErrors v).errBusy = (b.errBusy && !v.getLsbD 4) := rfl
@[simp] theorem Block.clearErrors_errCmd (b : Block) (v : Byte) : (b.clearErrors v).errCmd = (b.errCmd && !v.getLsbD 5) := rfl
@[simp] theorem Block.clearErrors_pullupEn (b : Block) (v : Byte) : (b.clearErrors v).pullupEn = b.pullupEn := rfl
@[simp] theorem Block.clearErrors_pcnt (b : Block) (v : Byte) : (b.clearErrors v).pcnt = b.pcnt := rfl
@[simp] theorem Block.clearErrors_rdur (b : Block) (v : Byte) : (b.clearErrors v).rdur = b.rdur := rfl

/-! ### Block.raise, ERR_CMD -/

@[simp] theorem Block.raise_cmd_ph (b : Block) : (b.raise .cmd).ph = b.ph := rfl
@[simp] theorem Block.raise_cmd_tmr (b : Block) : (b.raise .cmd).tmr = b.tmr := rfl
@[simp] theorem Block.raise_cmd_cnt (b : Block) : (b.raise .cmd).cnt = b.cnt := rfl
@[simp] theorem Block.raise_cmd_dur (b : Block) : (b.raise .cmd).dur = b.dur := rfl
@[simp] theorem Block.raise_cmd_idx (b : Block) : (b.raise .cmd).idx = b.idx := rfl
@[simp] theorem Block.raise_cmd_op (b : Block) : (b.raise .cmd).op = b.op := rfl
@[simp] theorem Block.raise_cmd_data (b : Block) : (b.raise .cmd).data = b.data := rfl
@[simp] theorem Block.raise_cmd_presence (b : Block) : (b.raise .cmd).presence = b.presence := rfl
@[simp] theorem Block.raise_cmd_errBusy (b : Block) : (b.raise .cmd).errBusy = b.errBusy := rfl
@[simp] theorem Block.raise_cmd_errCmd (b : Block) : (b.raise .cmd).errCmd = true := rfl
@[simp] theorem Block.raise_cmd_pullupEn (b : Block) : (b.raise .cmd).pullupEn = b.pullupEn := rfl
@[simp] theorem Block.raise_cmd_pcnt (b : Block) : (b.raise .cmd).pcnt = b.pcnt := rfl
@[simp] theorem Block.raise_cmd_rdur (b : Block) : (b.raise .cmd).rdur = b.rdur := rfl

/-! ### Block.raise, ERR_BUSY -/

@[simp] theorem Block.raise_busy_ph (b : Block) : (b.raise .busy).ph = b.ph := rfl
@[simp] theorem Block.raise_busy_tmr (b : Block) : (b.raise .busy).tmr = b.tmr := rfl
@[simp] theorem Block.raise_busy_cnt (b : Block) : (b.raise .busy).cnt = b.cnt := rfl
@[simp] theorem Block.raise_busy_dur (b : Block) : (b.raise .busy).dur = b.dur := rfl
@[simp] theorem Block.raise_busy_idx (b : Block) : (b.raise .busy).idx = b.idx := rfl
@[simp] theorem Block.raise_busy_op (b : Block) : (b.raise .busy).op = b.op := rfl
@[simp] theorem Block.raise_busy_data (b : Block) : (b.raise .busy).data = b.data := rfl
@[simp] theorem Block.raise_busy_presence (b : Block) : (b.raise .busy).presence = b.presence := rfl
@[simp] theorem Block.raise_busy_errBusy (b : Block) : (b.raise .busy).errBusy = true := rfl
@[simp] theorem Block.raise_busy_errCmd (b : Block) : (b.raise .busy).errCmd = b.errCmd := rfl
@[simp] theorem Block.raise_busy_pullupEn (b : Block) : (b.raise .busy).pullupEn = b.pullupEn := rfl
@[simp] theorem Block.raise_busy_pcnt (b : Block) : (b.raise .busy).pcnt = b.pcnt := rfl
@[simp] theorem Block.raise_busy_rdur (b : Block) : (b.raise .busy).rdur = b.rdur := rfl

/-! ### The block the outside sees -/

@[simp] theorem State.liveBlock_of_rst {s : State} (h : s.rst = true) : s.liveBlock = Block.reset := by
  simp [State.liveBlock, h]

@[simp] theorem State.liveBlock_of_not_rst {s : State} (h : s.rst = false) : s.liveBlock = s.blk := by
  simp [State.liveBlock, h]

@[simp] theorem State.setBlk_blk_self (s : State) : s.setBlk s.blk = s := rfl

@[simp] theorem Block.busy_eq_false_iff (b : Block) : b.busy = false ↔ b.ph = .idle := by
  simp [Block.busy]

@[simp] theorem Block.busy_eq_true_iff (b : Block) : b.busy = true ↔ b.ph ≠ .idle := by
  simp [Block.busy]

end Sys2Proof.Machine
end

