-- ==== Sys2Proof/Laws/Access.lean ====
section
/-! SUPPORT. What a guarded write, a command and a host access can do, said once. -/

namespace Sys2Proof.Machine

section
variable {effect : Params → Block → Block} {s t : State}

/-- A guarded write answers next in one of three ways: ignored in reset, rejected while busy, or its effect. -/
theorem guardedWrite_cases (h : guardedWrite effect s = .next t) :
    s.cfg.ok = true ∧
      ((s.rst = true ∧ t = s)
      ∨ (s.rst = false ∧ s.blk.busy = true ∧ t = s.setBlk (s.blk.raise .busy))
      ∨ (s.rst = false ∧ s.blk.busy = false ∧ t = s.setBlk (effect s.cfg s.blk))) := by
  unfold guardedWrite at h
  split at h
  · refine ⟨‹_›, ?_⟩
    split at h
    · cases h; exact .inl ⟨‹_›, rfl⟩
    · have hr : s.rst = false := by simpa using ‹¬s.rst = true›
      split at h
      · cases h; exact .inr (.inl ⟨hr, ‹_›, rfl⟩)
      · have hb : s.blk.busy = false := by simpa using ‹¬s.blk.busy = true›
        cases h; exact .inr (.inr ⟨hr, hb, rfl⟩)
  · cases h

theorem guardedWrite_of_idle (hc : s.cfg.ok = true) (hr : s.rst = false) (hb : s.blk.busy = false) :
    guardedWrite effect s = .next (s.setBlk (effect s.cfg s.blk)) := by
  simp only [guardedWrite, hc, hr, hb]; rfl

theorem guardedWrite_of_busy (hc : s.cfg.ok = true) (hr : s.rst = false) (hb : s.blk.busy = true) :
    guardedWrite effect s = .next (s.setBlk (s.blk.raise .busy)) := by
  simp only [guardedWrite, hc, hr, hb]; rfl

theorem guardedWrite_of_rst (hc : s.cfg.ok = true) (hr : s.rst = true) : guardedWrite effect s = .next s := by
  simp only [guardedWrite, hc, hr]; rfl

theorem guardedWrite_of_bad_config (hc : s.cfg.ok = false) :
    guardedWrite effect s = .refused .configuration := by
  simp only [guardedWrite, hc]; rfl

end

/-- The effect of a command on an idle block (R144). -/
def acceptEffect : Instr → Params → Block → Block
  | .reset => fun cfg b => (b.startCommand .reset).enter .rstLow cfg.tRstl
  | .writeBit => fun cfg b => (b.startCommand .writeBit).startSlot cfg
  | .readBit => fun cfg b => (b.startCommand .readBit).clearData.startSlot cfg
  | .writeByte => fun cfg b => (b.startCommand .writeByte).startSlot cfg
  | .readByte => fun cfg b => (b.startCommand .readByte).clearData.startSlot cfg

/-- Every command is a guarded write of its acceptance: citing this, the lemmas of `guardedWrite` speak of `exec`. -/
theorem exec_eq_guardedWrite (i : Instr) (s : State) : exec i s = guardedWrite (acceptEffect i) s := by
  cases i <;> rfl

/-- A CMD write is a guarded write, of a command's acceptance or of ERR_CMD. -/
theorem writeCmd_cases (v : Byte) (s : State) :
    (∃ i, decode v = .command i ∧ writeCmd v s = guardedWrite (acceptEffect i) s)
    ∨ (∃ why, decode v = .illegal why ∧ writeCmd v s = guardedWrite (fun _ b => b.raise .cmd) s) := by
  unfold writeCmd
  cases h : decode v with
  | command i => exact .inl ⟨i, rfl, exec_eq_guardedWrite i s⟩
  | illegal why => exact .inr ⟨why, rfl, rfl⟩

/-- A host read changes only `reg_rdata` and the count of draws (R74). -/
theorem hostRead_frame (a : Addr) (s : State) :
    (hostRead a s).blk = s.blk ∧ (hostRead a s).cfg = s.cfg ∧ (hostRead a s).rst = s.rst
      ∧ (hostRead a s).inputs = s.inputs
      ∧ (hostRead a s).rdata = s.liveBlock.readReg (Config.dataWhileBusy s.draws) a := by
  unfold hostRead
  dsimp only
  split <;> simp

/-- What a host write can do, by address (R73). -/
theorem hostWrite_cases (a : Addr) (v : Byte) (s : State) :
    (a = regCmd ∧ hostWrite a v s = writeCmd v s)
    ∨ (a = regData ∧ hostWrite a v s = writeData v s)
    ∨ (a = regStatus ∧ hostWrite a v s = writeStatus v s)
    ∨ (a = regConfig ∧ hostWrite a v s = writeConfig v s)
    ∨ (4 ≤ a.toNat ∧ hostWrite a v s = .next s) := by
  have heq : ∀ n : Nat, n < 8 → a.toNat = n → a = BitVec.ofNat 3 n := by
    intro n hn h; rw [← h, BitVec.ofNat_toNat, BitVec.setWidth_eq]
  obtain h | h | h | h | h : a.toNat = 0 ∨ a.toNat = 1 ∨ a.toNat = 2 ∨ a.toNat = 3 ∨ 4 ≤ a.toNat := by omega
  · exact .inl ⟨heq 0 (by omega) h, by simp [hostWrite, h]⟩
  · exact .inr (.inl ⟨heq 1 (by omega) h, by simp [hostWrite, h]⟩)
  · exact .inr (.inr (.inl ⟨heq 2 (by omega) h, by simp [hostWrite, h]⟩))
  · exact .inr (.inr (.inr (.inl ⟨heq 3 (by omega) h, by simp [hostWrite, h]⟩)))
  · refine .inr (.inr (.inr (.inr ⟨h, ?_⟩)))
    obtain ⟨n, hn⟩ : ∃ n, a.toNat = n + 4 := ⟨a.toNat - 4, by omega⟩
    simp [hostWrite, hn]

/-- A host write never changes the configuration, the level of `rst`, the events to come, `reg_rdata` or the count of
draws. -/
theorem hostWrite_frame {a : Addr} {v : Byte} {s t : State} (h : hostWrite a v s = .next t) :
    ∃ b, t = s.setBlk b := by
  have guarded : ∀ {effect}, guardedWrite effect s = .next t → ∃ b, t = s.setBlk b := by
    intro effect hg
    obtain ⟨-, ⟨-, rfl⟩ | ⟨-, -, rfl⟩ | ⟨-, -, rfl⟩⟩ := guardedWrite_cases hg
    · exact ⟨t.blk, rfl⟩
    · exact ⟨_, rfl⟩
    · exact ⟨_, rfl⟩
  obtain ⟨-, h'⟩ | ⟨-, h'⟩ | ⟨-, h'⟩ | ⟨-, h'⟩ | ⟨-, h'⟩ := hostWrite_cases a v s <;> rw [h'] at h
  · obtain ⟨i, -, h2⟩ | ⟨_, -, h2⟩ := writeCmd_cases v s <;> exact guarded (h2 ▸ h)
  · exact guarded h
  · unfold writeStatus at h
    split at h <;> cases h
    · exact ⟨s.blk, rfl⟩
    · exact ⟨_, rfl⟩
  · exact guarded h
  · cases h; exact ⟨s.blk, rfl⟩

end Sys2Proof.Machine
end

