-- ==== Sys2Proof/Laws/PerInstr.lean ====
section
/-! SUPPORT. Statements made for every command, one lemma per constructor. -/

/-- The command's byte has Z = 0 and its own OPC, as R100 and R101 say, and the decoder reads the byte as the command. -/
def Sys2Proof.Laws.CommandByte.Statement (i : Sys2Proof.Instr) : Prop :=
  Sys2Proof.zField (Sys2Proof.encode i) = 0#5 ∧ Sys2Proof.opcField (Sys2Proof.encode i) = i.opcode
    ∧ Sys2Proof.decode (Sys2Proof.encode i) = .command i

theorem Sys2Proof.Laws.CommandByte.reset : Sys2Proof.Laws.CommandByte.Statement .reset := by
  unfold Statement; decide

theorem Sys2Proof.Laws.CommandByte.writeBit : Sys2Proof.Laws.CommandByte.Statement .writeBit := by
  unfold Statement; decide

theorem Sys2Proof.Laws.CommandByte.readBit : Sys2Proof.Laws.CommandByte.Statement .readBit := by
  unfold Statement; decide

theorem Sys2Proof.Laws.CommandByte.writeByte : Sys2Proof.Laws.CommandByte.Statement .writeByte := by
  unfold Statement; decide

theorem Sys2Proof.Laws.CommandByte.readByte : Sys2Proof.Laws.CommandByte.Statement .readByte := by
  unfold Statement; decide
end

