-- ==== Sys2Proof/Laws/Values.lean ====
section
/-! SUPPORT. The arithmetic and the bit fields of the model, each pushed down to Nat and Bool facts once. -/

namespace Sys2Proof

/-- `Params.ok` taken apart into R9's constraints. -/
theorem Params.ok_iff (p : Params) :
    p.ok = true ↔
      (1 ≤ p.tRstl ∧ 1 ≤ p.tPdw ∧ 1 ≤ p.tW1l ∧ 1 ≤ p.tW0l ∧ 1 ≤ p.tRdl ∧ 1 ≤ p.tRec) ∧ p.tPdw ≤ 511
      ∧ (p.tRstl ≤ 1023 ∧ p.tPdw ≤ 1023 ∧ p.tW0l ≤ 1023 ∧ p.tW1l ≤ 1023 ∧ p.tSlot + p.tRec ≤ 1023
        ∧ p.tRp0 ≤ 1023 ∧ p.tRp1 ≤ 1023 ∧ p.tRdl ≤ 1023)
      ∧ p.pMin ≤ p.pMax ∧ (p.tRth ≤ 255 ∧ p.tRp0 ≤ 255 ∧ p.tRp1 ≤ 255) := by
  simp only [Params.ok, phasesNonempty, windowFitsCount, phasesFitTimer, boundsOrdered, durationCovers,
    Bool.and_eq_true, decide_eq_true_eq, Nat.max_le]
  simp only [Config.cntWidth, Config.tmrWidth, Config.durMax]
  omega

/-! ### R7's values -/

@[simp] theorem Params.default_tRstl : Params.default.tRstl = 480 := by decide
@[simp] theorem Params.default_tPdw : Params.default.tPdw = 500 := by decide
@[simp] theorem Params.default_pMin : Params.default.pMin = 60 := by decide
@[simp] theorem Params.default_pMax : Params.default.pMax = 240 := by decide
@[simp] theorem Params.default_tW1l : Params.default.tW1l = 6 := by decide
@[simp] theorem Params.default_tW0l : Params.default.tW0l = 61 := by decide
@[simp] theorem Params.default_tSlot : Params.default.tSlot = 60 := by decide
@[simp] theorem Params.default_tRec : Params.default.tRec = 1 := by decide
@[simp] theorem Params.default_tRdl : Params.default.tRdl = 2 := by decide
@[simp] theorem Params.default_tRth : Params.default.tRth = 15 := by decide
@[simp] theorem Params.default_tRp1 : Params.default.tRp1 = 56 := by decide
@[simp] theorem Params.default_tRp0 : Params.default.tRp0 = 51 := by decide
@[simp] theorem Params.default_tSettle : Params.default.tSettle = 50 := by decide
@[simp] theorem Params.default_rdurTime : Params.default.rdurTime = .atMeasurement := by decide

namespace Machine

@[simp] theorem satSub_eq (a b : Nat) : satSub a b = a - b := by
  unfold satSub; split <;> omega

theorem satInc8_toNat (x : Duration) : (satInc8 x).toNat = min (x.toNat + 1) 255 := by
  unfold satInc8; split <;> bv_omega

theorem writeLow_bounds {cfg : Params} (h : cfg.ok = true) (b : Bool) :
    1 ≤ writeLow cfg b ∧ writeLow cfg b ≤ 1023 := by
  rw [Params.ok_iff] at h; unfold writeLow; split <;> omega

theorem writeHigh_bounds {cfg : Params} (h : cfg.ok = true) (b : Bool) :
    1 ≤ writeHigh cfg b ∧ writeHigh cfg b ≤ 1023 := by
  rw [Params.ok_iff] at h; simp only [writeHigh, satSub_eq]; omega

theorem readPad_le {cfg : Params} (h : cfg.ok = true) (b : Bool) (d : Nat) : readPad cfg b d ≤ 255 := by
  rw [Params.ok_iff] at h; unfold readPad; split <;> simp only [satSub_eq] <;> omega

/-- A number that fits in TMR_W bits is held by `tmr` unchanged. -/
theorem timer_toNat {n : Nat} (h : n ≤ 1023) : (BitVec.ofNat 10 n).toNat = n := by
  rw [BitVec.toNat_ofNat, Nat.mod_eq_of_lt (by omega)]

@[simp] theorem zextBit_getLsbD (x : Bool) (j : Nat) : (zextBit x).getLsbD j = (decide (j = 0) && x) := by
  cases x <;> by_cases hj : j = 0 <;> simp [zextBit, hj]

/-- `setBit` replaces the one bit and keeps every other. -/
theorem setBit_getLsbD (v : Byte) (i : BitIndex) (x : Bool) (j : Nat) :
    (setBit v i x).getLsbD j = if j = i.toNat then x else v.getLsbD j := by
  have hi : i.toNat < 8 := i.isLt
  by_cases h8 : j < 8
  · unfold setBit
    by_cases hj : j = i.toNat
    · subst hj
      cases x <;> simp [hi, zextBit]
    · rcases Nat.lt_or_gt_of_ne hj with h | h
      · cases x <;> simp [h8, h, hj, zextBit]
      · have h0 : j - i.toNat ≠ 0 := by omega
        cases x <;> simp [h8, h0, hj, Nat.not_lt.mpr (Nat.le_of_lt h), zextBit]
  · have h1 : j ≠ i.toNat := by omega
    rw [BitVec.getLsbD_of_ge _ _ (by omega), if_neg h1, BitVec.getLsbD_of_ge _ _ (by omega)]

end Machine

end Sys2Proof
end

