-- ==== Sys2Proof/Laws/Sequencer.lean ====
section
/-! SUPPORT. What one tick can do, phase by phase, and what a run of ticks does inside one timed phase. -/

namespace Sys2Proof.Machine

/-! ### Slots -/

theorem Block.startSlot_of_writes {b : Block} (cfg : Params) (h : b.opWrites = true) :
    b.startSlot cfg = b.enter .wrLow (writeLow cfg b.slotBit) := by
  simp [Block.startSlot, h]

theorem Block.startSlot_of_reads {b : Block} (cfg : Params) (h : b.opWrites = false) :
    b.startSlot cfg = b.enter .rdLow cfg.tRdl := by
  simp [Block.startSlot, h]

/-- What `start_slot` can do: it changes the phase and the timer, and nothing else. -/
theorem Block.startSlot_eq_enter (cfg : Params) (b : Block) :
    ∃ p n, b.startSlot cfg = b.enter p n ∧ (p = .wrLow ∨ p = .rdLow) := by
  unfold Block.startSlot
  split
  · exact ⟨_, _, rfl, .inl rfl⟩
  · exact ⟨_, _, rfl, .inr rfl⟩

/-- `start_slot` changes no register and no flag. -/
theorem Block.startSlot_frame (cfg : Params) (b : Block) :
    (b.startSlot cfg).errBusy = b.errBusy ∧ (b.startSlot cfg).errCmd = b.errCmd
      ∧ (b.startSlot cfg).presence = b.presence ∧ (b.startSlot cfg).pcnt = b.pcnt
      ∧ (b.startSlot cfg).pullupEn = b.pullupEn ∧ (b.startSlot cfg).op = b.op
      ∧ (b.startSlot cfg).data = b.data ∧ (b.startSlot cfg).rdur = b.rdur
      ∧ (b.startSlot cfg).idx = b.idx ∧ (b.startSlot cfg).cnt = b.cnt := by
  obtain ⟨p, n, h, -⟩ := Block.startSlot_eq_enter cfg b
  rw [h]; simp

/-- What `finish_slot` can do: the next slot of a byte command, or IDLE. -/
theorem Block.finishSlot_cases (cfg : Params) (b : Block) :
    (b.opIsByte = true ∧ b.idx.toNat < 7
      ∧ b.finishSlot cfg = Block.startSlot cfg { b with idx := b.idx + 1#3 })
    ∨ ((b.opIsByte = false ∨ 7 ≤ b.idx.toNat) ∧ b.finishSlot cfg = b.toIdle) := by
  unfold Block.finishSlot
  by_cases hb : b.opIsByte = true
  · by_cases hi : b.idx.toNat < 7
    · simp [hb, hi]
    · exact .inr ⟨.inr (by omega), by simp [hi]⟩
  · exact .inr ⟨.inl (by simpa using hb), by simp [hb]⟩

/-- `finish_slot` changes no register and no flag. -/
theorem Block.finishSlot_frame (cfg : Params) (b : Block) :
    (b.finishSlot cfg).errBusy = b.errBusy ∧ (b.finishSlot cfg).errCmd = b.errCmd
      ∧ (b.finishSlot cfg).presence = b.presence ∧ (b.finishSlot cfg).pcnt = b.pcnt
      ∧ (b.finishSlot cfg).pullupEn = b.pullupEn ∧ (b.finishSlot cfg).op = b.op
      ∧ (b.finishSlot cfg).data = b.data ∧ (b.finishSlot cfg).rdur = b.rdur
      ∧ (b.finishSlot cfg).cnt = b.cnt := by
  obtain ⟨-, -, h⟩ | ⟨-, h⟩ := Block.finishSlot_cases cfg b
  · rw [h]; simp [Block.startSlot_frame]
  · rw [h]; simp

/-- Ending a read slot is ending a slot, but for RDUR. -/
theorem Block.finishReadSlot_frame (cfg : Params) (b : Block) :
    (b.finishReadSlot cfg).ph = (b.finishSlot cfg).ph ∧ (b.finishReadSlot cfg).op = b.op
      ∧ (b.finishReadSlot cfg).errBusy = b.errBusy ∧ (b.finishReadSlot cfg).errCmd = b.errCmd
      ∧ (b.finishReadSlot cfg).presence = b.presence ∧ (b.finishReadSlot cfg).pcnt = b.pcnt
      ∧ (b.finishReadSlot cfg).data = b.data ∧ (b.finishReadSlot cfg).pullupEn = b.pullupEn := by
  simp [Block.finishReadSlot, Block.finishSlot_frame]

theorem Block.finishReadSlot_rdur (cfg : Params) (b : Block) :
    (b.finishReadSlot cfg).rdur
      = if cfg.rdurTime = .atCommandEnd ∧ (b.finishSlot cfg).ph = .idle then b.dur else b.rdur := rfl

/-- With RDUR written by the arm of R176, the end of a read slot is `finish_slot` alone (R176, R179). -/
theorem Block.finishReadSlot_of_atMeasurement {cfg : Params} (h : cfg.rdurTime = .atMeasurement) (b : Block) :
    b.finishReadSlot cfg = b.finishSlot cfg := by
  simp [Block.finishReadSlot, h, ← (Block.finishSlot_frame cfg b)]

/-- The tick that ends a read command leaves the slot's measurement in RDUR. -/
theorem Block.finishReadSlot_of_end {cfg : Params} {b : Block} (h : (b.opIsByte && decide (b.idx.toNat < 7)) = false) :
    b.finishReadSlot cfg
      = { b.toIdle with rdur := if cfg.rdurTime = .atCommandEnd then b.dur else b.rdur } := by
  have hf : b.finishSlot cfg = b.toIdle := if_neg (by simp [h])
  simp [Block.finishReadSlot, hf]

/-- The tick that ends a read slot with another one to come leaves RDUR alone. -/
theorem Block.finishReadSlot_of_more {cfg : Params} {b : Block} (h : (b.opIsByte && decide (b.idx.toNat < 7)) = true) :
    b.finishReadSlot cfg = Block.startSlot cfg { b with idx := b.idx + 1#3 } := by
  have hf : b.finishSlot cfg = Block.startSlot cfg { b with idx := b.idx + 1#3 } := if_pos h
  simp only [Block.finishReadSlot, hf]
  unfold Block.startSlot
  split <;> simp [Block.enter]

/-! ### One tick -/

section
variable {cfg : Params} {e : Bool} {b : Block}

theorem Block.tick_idle (h : b.ph = .idle) : b.tick cfg e = b := by
  simp [Block.tick, armIdle, h]

theorem Block.tick_rstLow (h : b.ph = .rstLow) :
    b.tick cfg e = if b.tmr = 1#10 then { b.enter .rstSamp cfg.tPdw with cnt := 0#9 } else b.countDown := by
  simp [Block.tick, armRstLow, h]

theorem Block.tick_rstSamp (h : b.ph = .rstSamp) :
    b.tick cfg e = if b.tmr = 1#10 then
      { b.toIdle with presence := presenceOf cfg (b.countWith e).toNat, pcnt := b.countWith e }
      else { b.countDown with cnt := b.countWith e } := by
  simp [Block.tick, armRstSamp, Block.line, Block.driveLow, h]

theorem Block.tick_wrLow (h : b.ph = .wrLow) :
    b.tick cfg e = if b.tmr = 1#10 then b.enter .wrHigh (writeHigh cfg b.slotBit) else b.countDown := by
  simp [Block.tick, armWrLow, h]

theorem Block.tick_wrHigh (h : b.ph = .wrHigh) :
    b.tick cfg e = if b.tmr = 1#10 then b.finishSlot cfg else b.countDown := by
  simp [Block.tick, armWrHigh, h]

theorem Block.tick_rdLow (h : b.ph = .rdLow) :
    b.tick cfg e = if b.tmr = 1#10 then { b with ph := .rdMeas, dur := 0#8 } else b.countDown := by
  simp [Block.tick, armRdLow, h]

theorem Block.tick_rdMeas_low (h : b.ph = .rdMeas) : b.tick cfg false = { b with dur := satInc8 b.dur } := by
  simp [Block.tick, armRdMeas, Block.line, Block.driveLow, h]

theorem Block.tick_rdMeas_high (h : b.ph = .rdMeas) :
    b.tick cfg true =
      if readPad cfg (classify cfg b.dur.toNat) b.dur.toNat = 0 then (b.storeMeasured cfg).finishReadSlot cfg
      else (b.storeMeasured cfg).enter .rdPad (readPad cfg (classify cfg b.dur.toNat) b.dur.toNat) := by
  simp [Block.tick, armRdMeas, Block.line, Block.driveLow, h]

/-- With RDUR written by the arm of R176, the tick that ends a measurement leaves the same block whatever RDUR was, also where
the command runs on: no function of R54's state gives the old RDUR from there, as R306 asks (log 22). -/
theorem Block.tick_rdMeas_high_forgets_rdur (hr : cfg.rdurTime = .atMeasurement) (h : b.ph = .rdMeas) (v : Duration) :
    Block.tick cfg true { b with rdur := v } = b.tick cfg true := by
  rw [Block.tick_rdMeas_high h, Block.tick_rdMeas_high (b := { b with rdur := v }) h]
  simp [Block.storeMeasured, Block.storeSlotBit, hr]

theorem Block.tick_rdPad (h : b.ph = .rdPad) :
    b.tick cfg e = if b.tmr = 1#10 then b.finishReadSlot cfg else b.countDown := by
  simp [Block.tick, armRdPad, h]

end

/-! ### Runs of ticks -/

@[simp] theorem Block.ticks_nil (cfg : Params) (b : Block) : b.ticks cfg [] = b := rfl

@[simp] theorem Block.ticks_cons (cfg : Params) (e : Bool) (es : List Bool) (b : Block) :
    b.ticks cfg (e :: es) = (b.tick cfg e).ticks cfg es := rfl

theorem Block.ticks_append (cfg : Params) (es fs : List Bool) (b : Block) :
    b.ticks cfg (es ++ fs) = (b.ticks cfg es).ticks cfg fs := by
  induction es generalizing b with
  | nil => rfl
  | cons e es ih => simp [ih]

theorem Block.ticks_idle {b : Block} (cfg : Params) (es : List Bool) (h : b.ph = .idle) : b.ticks cfg es = b := by
  induction es with
  | nil => rfl
  | cons e es ih => rw [Block.ticks_cons, Block.tick_idle h, ih]

/-- A phase whose arm only counts `tmr` down until its last tick. -/
def Phase.countsDown : Phase → Bool
  | .idle => false
  | .rstLow => true
  | .rstSamp => false
  | .wrLow => true
  | .wrHigh => true
  | .rdLow => true
  | .rdMeas => false
  | .rdPad => true

theorem Block.tick_countDown {b : Block} (cfg : Params) (e : Bool) (hp : b.ph.countsDown = true)
    (ht : b.tmr ≠ 1#10) : b.tick cfg e = b.countDown := by
  cases h : b.ph <;> simp [Phase.countsDown, h] at hp
  · rw [Block.tick_rstLow h, if_neg ht]
  · rw [Block.tick_wrLow h, if_neg ht]
  · rw [Block.tick_wrHigh h, if_neg ht]
  · rw [Block.tick_rdLow h, if_neg ht]
  · rw [Block.tick_rdPad h, if_neg ht]

/-- Fewer ticks than are left in a counting phase take that many off `tmr` and do nothing else. -/
theorem Block.ticks_countDown {b : Block} (cfg : Params) (es : List Bool) (hp : b.ph.countsDown = true)
    (hl : es.length < b.tmr.toNat) :
    b.ticks cfg es = { b with tmr := BitVec.ofNat 10 (b.tmr.toNat - es.length) } := by
  induction es generalizing b with
  | nil => simp
  | cons e es ih =>
    simp only [List.length_cons] at hl ⊢
    have hlt : b.tmr.toNat < 1024 := b.tmr.isLt
    have ht : b.tmr ≠ 1#10 := by intro h; rw [h] at hl; simp at hl
    have hd : (b.tmr - 1#10).toNat = b.tmr.toNat - 1 := by bv_omega
    rw [Block.ticks_cons, Block.tick_countDown cfg e hp ht, ih (by simpa using hp) (by simp [hd]; omega)]
    simp only [Block.countDown, hd]
    rw [show b.tmr.toNat - 1 - es.length = b.tmr.toNat - (es.length + 1) by omega]

/-- As many ticks as are left in a counting phase end it: they are its last tick, with `tmr` at 1. -/
theorem Block.ticks_lastTick {b : Block} (cfg : Params) (es : List Bool) (hp : b.ph.countsDown = true)
    (h1 : 1 ≤ b.tmr.toNat) (hl : es.length = b.tmr.toNat) :
    ∃ e, b.ticks cfg es = Block.tick cfg e { b with tmr := 1#10 } := by
  rcases List.eq_nil_or_concat es with rfl | ⟨fs, e, rfl⟩
  · simp at hl; omega
  · refine ⟨e, ?_⟩
    simp only [List.concat_eq_append, List.length_append, List.length_cons, List.length_nil] at hl
    rw [List.concat_eq_append, Block.ticks_append, Block.ticks_countDown cfg fs hp (by omega)]
    simp [show b.tmr.toNat - fs.length = 1 by omega]

end Sys2Proof.Machine
end

