-- ==== Sys2Proof/Laws/Step.lean ====
section
/-! SUPPORT. What one step can do, said once. -/

namespace Sys2Proof.Machine

section
variable {s t : State}

/-- A step that answers next is one of: a free tick, a tick, a read, a write, a change of `rst`. -/
theorem step_cases (h : step s = .next t) :
    s.cfg.ok = true ∧
      ((s.inputs = [] ∧ t = freeTick s)
      ∨ (∃ e rest, s.inputs = .tick e :: rest ∧ t = tickEvent e (s.setInputs rest))
      ∨ (∃ a rest, s.inputs = .read 8 a :: rest ∧ t = hostRead a (s.setInputs rest))
      ∨ (∃ a v rest, s.inputs = .write 8 a v :: rest ∧ hostWrite a v (s.setInputs rest) = .next t)
      ∨ (∃ l rest, s.inputs = .rst l :: rest ∧ t = rstEvent l (s.setInputs rest))) := by
  unfold step at h
  split at h
  · refine ⟨‹_›, ?_⟩
    unfold nextEvent at h
    split at h
    · cases h; exact .inl ⟨‹_›, rfl⟩
    · rename_i i rest hi
      cases i with
      | tick e => cases h; exact .inr (.inl ⟨e, rest, hi, rfl⟩)
      | read w a =>
        by_cases hw : w = 8
        · subst hw; cases h; exact .inr (.inr (.inl ⟨a, rest, hi, rfl⟩))
        · simp [perform, accessWidthOk, hw] at h
      | write w a v =>
        by_cases hw : w = 8
        · subst hw; exact .inr (.inr (.inr (.inl ⟨a, v, rest, hi, h⟩)))
        · simp [perform, accessWidthOk, hw] at h
      | rst l => cases h; exact .inr (.inr (.inr (.inr ⟨l, rest, hi, rfl⟩)))
  · cases h

/-- A step takes the first event of the list. -/
theorem step_of_input {i : Input} {rest : List Input} (hc : s.cfg.ok = true) (hi : s.inputs = i :: rest) :
    step s = perform i (s.setInputs rest) := by
  simp only [step, hc, nextEvent, hi]; rfl

theorem perform_write (a : Addr) (v : Byte) (s : State) : perform (.write 8 a v) s = hostWrite a v s := rfl

theorem perform_read (a : Addr) (s : State) : perform (.read 8 a) s = .next (hostRead a s) := rfl

/-- A tick outside reset is the sequencer's tick on the block. -/
theorem tickEvent_of_not_rst (e : Bool) (h : s.rst = false) :
    tickEvent e s = s.setBlk (s.blk.tick s.cfg e) := by
  simp [tickEvent, h]

/-- A step never changes the configuration. -/
theorem step_cfg (h : step s = .next t) : t.cfg = s.cfg := by
  obtain ⟨-, ⟨-, rfl⟩ | ⟨e, r, -, rfl⟩ | ⟨a, r, -, rfl⟩ | ⟨a, v, r, -, hw⟩ | ⟨l, r, -, rfl⟩⟩ := step_cases h
  · simp [freeTick, tickEvent]
  · simp [tickEvent]
  · simp [(hostRead_frame a (s.setInputs r)).2.1]
  · obtain ⟨b, rfl⟩ := hostWrite_frame hw; simp
  · simp [rstEvent]

end

/-- The acceptance of a command changes no flag, no measurement and no PULLUP_EN. -/
theorem acceptEffect_frame (i : Instr) (cfg : Params) (b : Block) :
    (acceptEffect i cfg b).errBusy = b.errBusy ∧ (acceptEffect i cfg b).errCmd = b.errCmd
      ∧ (acceptEffect i cfg b).presence = b.presence ∧ (acceptEffect i cfg b).pcnt = b.pcnt
      ∧ (acceptEffect i cfg b).rdur = b.rdur ∧ (acceptEffect i cfg b).pullupEn = b.pullupEn := by
  cases i <;> simp [acceptEffect, Block.startSlot_frame]

/-- What a step outside reset does to the block: a tick, nothing (a read), the row of R73's table for a write, or reset.
Every claim about the block over all steps starts here. -/
theorem step_blk {s t : State} (hr : s.rst = false) (h : step s = .next t) :
    ((s.inputs = [] ∨ ∃ e rest, s.inputs = .tick e :: rest) ∧ ∃ e, t.blk = s.blk.tick s.cfg e)
    ∨ ((∃ a rest, s.inputs = .read 8 a :: rest) ∧ t.blk = s.blk)
    ∨ (∃ a v rest, s.inputs = .write 8 a v :: rest ∧
        (((a = regCmd ∨ a = regData ∨ a = regConfig) ∧ s.blk.busy = true ∧ t.blk = s.blk.raise .busy)
        ∨ (a = regCmd ∧ s.blk.busy = false ∧ ∃ i, decode v = .command i ∧ t.blk = acceptEffect i s.cfg s.blk)
        ∨ (a = regCmd ∧ s.blk.busy = false ∧ ∃ why, decode v = .illegal why ∧ t.blk = s.blk.raise .cmd)
        ∨ (a = regData ∧ s.blk.busy = false ∧ t.blk = { s.blk with data := v })
        ∨ (a = regStatus ∧ t.blk = s.blk.clearErrors v)
        ∨ (a = regConfig ∧ s.blk.busy = false ∧ t.blk = { s.blk with pullupEn := v.getLsbD 0 })
        ∨ (4 ≤ a.toNat ∧ t.blk = s.blk)))
    ∨ (∃ rest, s.inputs = .rst true :: rest ∧ t.blk = Block.reset)
    ∨ (∃ rest, s.inputs = .rst false :: rest ∧ t.blk = s.blk) := by
  obtain ⟨-, ⟨hi, rfl⟩ | ⟨e, r, hi, rfl⟩ | ⟨a, r, hi, rfl⟩ | ⟨a, v, r, hi, hw⟩ | ⟨l, r, hi, rfl⟩⟩ := step_cases h
  · exact .inl ⟨.inl hi, Config.envLevel s.draws, by simp [freeTick, tickEvent_of_not_rst _ hr]⟩
  · exact .inl ⟨.inr ⟨_, _, hi⟩, e, by rw [tickEvent_of_not_rst (s := s.setInputs r) e hr]; rfl⟩
  · exact .inr (.inl ⟨⟨_, _, hi⟩, (hostRead_frame _ _).1⟩)
  · refine .inr (.inr (.inl ⟨a, v, r, hi, ?_⟩))
    obtain ⟨rfl, h'⟩ | ⟨rfl, h'⟩ | ⟨rfl, h'⟩ | ⟨rfl, h'⟩ | ⟨h4, h'⟩ := hostWrite_cases a v (s.setInputs r) <;>
      rw [h'] at hw
    · obtain ⟨i, hd, h2⟩ | ⟨why, hd, h2⟩ := writeCmd_cases v (s.setInputs r) <;> rw [h2] at hw
        <;> obtain ⟨-, ⟨hr', rfl⟩ | ⟨-, hb, rfl⟩ | ⟨-, hb, rfl⟩⟩ := guardedWrite_cases hw
      · simp [hr] at hr'
      · exact .inl ⟨.inl rfl, hb, rfl⟩
      · exact .inr (.inl ⟨rfl, hb, i, hd, rfl⟩)
      · simp [hr] at hr'
      · exact .inl ⟨.inl rfl, hb, rfl⟩
      · exact .inr (.inr (.inl ⟨rfl, hb, why, hd, rfl⟩))
    · obtain ⟨-, ⟨hr', rfl⟩ | ⟨-, hb, rfl⟩ | ⟨-, hb, rfl⟩⟩ := guardedWrite_cases hw
      · simp [hr] at hr'
      · exact .inl ⟨.inr (.inl rfl), hb, rfl⟩
      · exact .inr (.inr (.inr (.inl ⟨rfl, hb, rfl⟩)))
    · simp only [writeStatus, State.setInputs_rst, hr] at hw
      cases hw
      exact .inr (.inr (.inr (.inr (.inl ⟨rfl, rfl⟩))))
    · obtain ⟨-, ⟨hr', rfl⟩ | ⟨-, hb, rfl⟩ | ⟨-, hb, rfl⟩⟩ := guardedWrite_cases hw
      · simp [hr] at hr'
      · exact .inl ⟨.inr (.inr rfl), hb, rfl⟩
      · exact .inr (.inr (.inr (.inr (.inr (.inl ⟨rfl, hb, rfl⟩)))))
    · cases hw
      exact .inr (.inr (.inr (.inr (.inr (.inr ⟨h4, rfl⟩)))))
  · cases l
    · exact .inr (.inr (.inr (.inr ⟨_, hi, by simp [rstEvent, State.liveBlock, hr]⟩)))
    · exact .inr (.inr (.inr (.inl ⟨_, hi, rfl⟩)))

/-! ### Runs of steps -/

theorem run_zero (s : State) : Host.Core.run Sys2Proof.core 0 s = .next s := rfl

theorem run_succ {s s' : State} (n : Nat) (h : step s = .next s') :
    Host.Core.run Sys2Proof.core (n + 1) s = Host.Core.run Sys2Proof.core n s' := by
  simp only [Host.Core.run]
  rw [show Sys2Proof.core.step s = .next s' from h]

/-- Runs one after the other. -/
theorem run_append {s s' : State} (m n : Nat) (h : Host.Core.run Sys2Proof.core m s = .next s') :
    Host.Core.run Sys2Proof.core (m + n) s = Host.Core.run Sys2Proof.core n s' := by
  induction m generalizing s with
  | zero => cases h; rw [Nat.zero_add]
  | succ m ih =>
    cases hs : step s with
    | next u =>
      rw [run_succ m hs] at h
      rw [Nat.add_right_comm, run_succ (m + n) hs]
      exact ih h
    | fault r => cases r
    | refused r =>
      simp only [Host.Core.run] at h
      rw [show Sys2Proof.core.step s = .refused r from hs] at h
      cases h

/-! ### The states claims start from -/

theorem State.ready_iff (s : State) :
    s.ready = true ↔ s.cfg.ok = true ∧ s.rst = false ∧ s.blk.ph = .idle := by
  simp [State.ready, and_assoc]

/-- On a ready state a command is its acceptance. -/
theorem exec_of_ready {s : State} (i : Instr) (h : s.ready = true) :
    exec i s = .next (s.setBlk (acceptEffect i s.cfg s.blk)) := by
  obtain ⟨hc, hr, hi⟩ := s.ready_iff.1 h
  rw [exec_eq_guardedWrite, guardedWrite_of_idle hc hr (by simpa using hi)]

end Sys2Proof.Machine
end

