-- ==== Sys2Proof/Tests/Slice0.lean ====
section
/-! SUPPORT. The model's own tests, one step each, against the spec's words and the vectors of 95_test_vectors.md; and,
for each statement with hypotheses, a witness that meets them. -/

namespace Sys2Proof.Tests

open Sys2Proof.Machine

/-- The reset state with another block and a list of events. -/
def stateWith (b : Block) (l : List Input) : State :=
  { State.reset with blk := b, inputs := l }

/-- A reset block in phase `p` with `n` ticks to go, serving `i`. -/
def blockIn (p : Phase) (n : Nat) (i : Instr) : Block :=
  { Block.reset with ph := p, tmr := BitVec.ofNat 10 n, op := i.opcode }

/-- The block after an outcome. -/
def blkOf : Result → Option Block
  | .next t => some t.blk
  | .fault _ => none
  | .refused _ => none

/-- What the host reads after an outcome. -/
def rdataOf : Result → Option Byte
  | .next t => some t.rdata
  | .fault _ => none
  | .refused _ => none

/-! ### Well-formedness: each check refuses an ill-formed term (R9, R71) -/

theorem test_wf_default : Params.default.ok = true := by decide

theorem test_wf_empty_phase : ({ tRec := 0 } : Params).phasesNonempty = false
    ∧ ({ tRstl := 0 } : Params).phasesNonempty = false ∧ ({ tPdw := 0 } : Params).phasesNonempty = false
    ∧ ({ tW1l := 0 } : Params).phasesNonempty = false ∧ ({ tW0l := 0 } : Params).phasesNonempty = false
    ∧ ({ tRdl := 0 } : Params).phasesNonempty = false := by decide

theorem test_wf_window : ({ tPdw := 512 } : Params).windowFitsCount = false
    ∧ ({ tPdw := 511 } : Params).windowFitsCount = true := by decide

theorem test_wf_timer : ({ tRstl := 1024 } : Params).phasesFitTimer = false
    ∧ ({ tRstl := 1023 } : Params).phasesFitTimer = true
    ∧ ({ tSlot := 1023, tRec := 1 } : Params).phasesFitTimer = false
    ∧ ({ tW0l := 1024 } : Params).phasesFitTimer = false ∧ ({ tW1l := 1024 } : Params).phasesFitTimer = false
    ∧ ({ tRp0 := 1024 } : Params).phasesFitTimer = false ∧ ({ tRp1 := 1024 } : Params).phasesFitTimer = false
    ∧ ({ tRdl := 1024 } : Params).phasesFitTimer = false := by decide

theorem test_wf_bounds : ({ pMin := 241 } : Params).boundsOrdered = false
    ∧ ({ pMin := 240 } : Params).boundsOrdered = true := by decide

theorem test_wf_duration : ({ tRth := 256 } : Params).durationCovers = false
    ∧ ({ tRp1 := 256 } : Params).durationCovers = false ∧ ({ tRp0 := 256 } : Params).durationCovers = false
    ∧ ({ tRth := 255 } : Params).durationCovers = true := by decide

theorem test_wf_refused : step { State.reset with cfg := { tRec := 0 } } = .refused .configuration
    ∧ exec .readByte { State.reset with cfg := { pMin := 241 } } = .refused .configuration := ⟨rfl, rfl⟩

theorem test_wf_access : accessWidthOk 8 = true ∧ accessWidthOk 16 = false ∧ accessWidthOk 0 = false := by decide

/-! ### Decoding: words written from R100 and R101, bit by bit; spot checks of 95_test_vectors.md 2.7 -/

theorem test_decode_reset : decode 0b00000_001#8 = .command .reset := by decide

theorem test_decode_writeBit : decode 0b00000_010#8 = .command .writeBit := by decide

theorem test_decode_readBit : decode 0b00000_011#8 = .command .readBit := by decide

theorem test_decode_writeByte : decode 0b00000_100#8 = .command .writeByte := by decide

theorem test_decode_readByte : decode 0b00000_101#8 = .command .readByte := by decide

theorem test_decode_illegal : decode 0x00#8 = .illegal .reservedOpcode ∧ decode 0x06#8 = .illegal .reservedOpcode
    ∧ decode 0x07#8 = .illegal .reservedOpcode ∧ decode 0x09#8 = .illegal .zNotZero
    ∧ decode 0x81#8 = .illegal .zNotZero ∧ decode 0xFD#8 = .illegal .zNotZero := by decide

theorem test_decodeTableWord : decodeTableWord 8 0x05 = some .readByte ∧ decodeTableWord 8 0x06 = none
    ∧ decodeTableWord 16 0x05 = none := by decide

/-- A word placed where a step takes its next event is run by that step, as the first after reset. -/
theorem test_fetch : blkOf (step (State.reset.withFetchWord 8 0x01)) = some (blockIn .rstLow 480 .reset) := by decide

/-! ### The commands, at acceptance and at a tick that matters -/

/-- R223 at acceptance. -/
theorem test_reset_accept : blkOf (exec .reset State.reset) = some (blockIn .rstLow 480 .reset) := by decide

/-- RS3 against RS2: the last window tick, low, makes 60 lows a presence and 59 none. -/
theorem test_reset_end :
    blkOf (step (stateWith { blockIn .rstSamp 1 .reset with cnt := 59#9 } [.tick false]))
      = some { blockIn .idle 1 .reset with cnt := 59#9, pcnt := 60#9, presence := true }
    ∧ blkOf (step (stateWith { blockIn .rstSamp 1 .reset with cnt := 59#9 } [.tick true]))
      = some { blockIn .idle 1 .reset with cnt := 59#9, pcnt := 59#9, presence := false } := by decide

/-- WB3: only DATA[0] counts; 0xFE sends a 0. WB4: 0xFF sends a 1. -/
theorem test_writeBit_accept :
    blkOf (exec .writeBit (stateWith { Block.reset with data := 0xFE#8 } []))
      = some { blockIn .wrLow 61 .writeBit with data := 0xFE#8 }
    ∧ blkOf (exec .writeBit (stateWith { Block.reset with data := 0xFF#8 } []))
      = some { blockIn .wrLow 6 .writeBit with data := 0xFF#8 } := by decide

/-- WB2: after the 61 low ticks of a write-0, one released tick. -/
theorem test_writeBit_release :
    blkOf (step (stateWith (blockIn .wrLow 1 .writeBit) [.tick true])) = some (blockIn .wrHigh 1 .writeBit) := by decide

/-- R144: a read command clears DATA. -/
theorem test_readBit_accept :
    blkOf (exec .readBit (stateWith { Block.reset with data := 0xAA#8 } [])) = some (blockIn .rdLow 2 .readBit) := by decide

/-- RB3 and RB4: duration 14 is a 1 with pad 42, duration 15 a 0 with pad 36. RDUR is
written with the bit (R176). -/
theorem test_readBit_measured :
    blkOf (step (stateWith { blockIn .rdMeas 1 .readBit with dur := 14#8 } [.tick true]))
      = some { blockIn .rdPad 42 .readBit with dur := 14#8, rdur := 14#8, data := 0x01#8 }
    ∧ blkOf (step (stateWith { blockIn .rdMeas 1 .readBit with dur := 15#8 } [.tick true]))
      = some { blockIn .rdPad 36 .readBit with dur := 15#8, rdur := 15#8 } := by decide

/-- R179: the last tick of a pad ends the slot and nothing else. Under the other reading of log 22 it writes RDUR (R149),
and the end of the measurement does not. -/
theorem test_rdur_time :
    blkOf (step (stateWith { blockIn .rdPad 1 .readBit with dur := 14#8 } [.tick true]))
      = some { blockIn .idle 1 .readBit with dur := 14#8 }
    ∧ blkOf (step { stateWith { blockIn .rdPad 1 .readBit with dur := 14#8 } [.tick true] with
        cfg := { rdurTime := .atCommandEnd } })
      = some { blockIn .idle 1 .readBit with dur := 14#8, rdur := 14#8 }
    ∧ blkOf (step { stateWith { blockIn .rdMeas 1 .readBit with dur := 15#8 } [.tick true] with
        cfg := { rdurTime := .atCommandEnd } })
      = some { blockIn .rdPad 36 .readBit with dur := 15#8 } := by decide

/-- WY1: slot 0 of 0xCC sends a 0. -/
theorem test_writeByte_accept :
    blkOf (exec .writeByte (stateWith { Block.reset with data := 0xCC#8 } []))
      = some { blockIn .wrLow 61 .writeByte with data := 0xCC#8 } := by decide

/-- WY1: at command tick 124 slot 1 ends and slot 2 starts with a 1. -/
theorem test_writeByte_next_slot :
    blkOf (step (stateWith { blockIn .wrHigh 1 .writeByte with data := 0xCC#8, idx := 1#3 } [.tick true]))
      = some { blockIn .wrLow 6 .writeByte with data := 0xCC#8, idx := 2#3 } := by decide

/-- R144, R202: DATA cleared, slot 0 starts. -/
theorem test_readByte_accept :
    blkOf (exec .readByte (stateWith { Block.reset with data := 0xFF#8 } [])) = some (blockIn .rdLow 2 .readByte) := by decide

/-- R176 with a pad of 0 (RB8) in slot 7: the bit is stored and the command ends in the same tick. -/
theorem test_readByte_last_slot :
    blkOf (step (stateWith { blockIn .rdMeas 1 .readByte with dur := 52#8, idx := 7#3, data := 0x11#8 } [.tick true]))
      = some { blockIn .idle 1 .readByte with dur := 52#8, rdur := 52#8, idx := 7#3, data := 0x11#8 } := by decide

/-! ### Host accesses (95_test_vectors.md 2.6) -/

/-- E1: 0x00 to CMD is illegal. -/
theorem test_E1 : blkOf (step (stateWith Block.reset [.write 8 0x0#3 0x00#8])) = some { Block.reset with errCmd := true } := by
  decide

/-- E3, E4: only bit 5 clears ERR_CMD. -/
theorem test_E3_E4 :
    blkOf (step (stateWith { Block.reset with errCmd := true } [.write 8 0x2#3 0x10#8]))
      = some { Block.reset with errCmd := true }
    ∧ blkOf (step (stateWith { Block.reset with errCmd := true } [.write 8 0x2#3 0x20#8])) = some Block.reset := by decide

/-- E5: an illegal byte while busy gives ERR_BUSY, not ERR_CMD. -/
theorem test_E5 :
    blkOf (step (stateWith (blockIn .wrLow 5 .writeBit) [.write 8 0x0#3 0x09#8]))
      = some { blockIn .wrLow 5 .writeBit with errBusy := true } := by decide

/-- E7: clearing is accepted while busy. -/
theorem test_E7 :
    blkOf (step (stateWith { blockIn .wrLow 5 .writeBit with errBusy := true } [.write 8 0x2#3 0x30#8]))
      = some (blockIn .wrLow 5 .writeBit) := by decide

/-- E8: a write to a read-only address has no effect. -/
theorem test_E8 : blkOf (step (stateWith Block.reset [.write 8 0x4#3 0xFF#8])) = some Block.reset := by decide

/-- E9: CMD and the reserved address read 0. -/
theorem test_E9 : rdataOf (step (stateWith (blockIn .wrLow 5 .writeBit) [.read 8 0x0#3])) = some 0x00#8
    ∧ rdataOf (step (stateWith (blockIn .wrLow 5 .writeBit) [.read 8 0x7#3])) = some 0x00#8 := by decide

/-- E10: CONFIG keeps bit 0 only. -/
theorem test_E10 : blkOf (step (stateWith Block.reset [.write 8 0x3#3 0xFF#8])) = some { Block.reset with pullupEn := true }
    ∧ rdataOf (step (stateWith { Block.reset with pullupEn := true } [.read 8 0x3#3])) = some 0x01#8 := by decide

/-- R40: STATUS with every field set; R42, RS6: PCNT 500 reads 0xF4 and 0x01. -/
theorem test_read_status_pcnt :
    rdataOf (step (stateWith { blockIn .rstLow 9 .reset with errCmd := true, errBusy := true, presence := true }
      [.read 8 0x2#3])) = some 0x33#8
    ∧ rdataOf (step (stateWith { Block.reset with pcnt := 500#9 } [.read 8 0x4#3])) = some 0xF4#8
    ∧ rdataOf (step (stateWith { Block.reset with pcnt := 500#9 } [.read 8 0x5#3])) = some 0x01#8 := by decide

/-- E11, R77: DATA while busy is a free value. -/
theorem test_E11 : rdataOf (step (stateWith (blockIn .rdLow 2 .readBit) [.read 8 0x1#3])) = some (Config.dataWhileBusy 0) :=
  rfl

/-- E12: rst in the middle of a RESET leaves the reset values. -/
theorem test_E12 : blkOf (step (stateWith { blockIn .rstSamp 4 .reset with cnt := 120#9 } [.rst true])) = some Block.reset := by
  decide

/-- R113, R114: the bytes host programs send. -/
theorem test_host_bytes : SensorCommand.skipRom.byte = 0xCC#8 ∧ SensorCommand.convertT.byte = 0x44#8
    ∧ SensorCommand.readScratchpad.byte = 0xBE#8 ∧ SensorCommand.writeScratchpad.byte = 0x4E#8
    ∧ Resolution.bits9.byte = 0x1F#8 ∧ Resolution.bits10.byte = 0x3F#8 ∧ Resolution.bits11.byte = 0x5F#8
    ∧ Resolution.bits12.byte = 0x7F#8 := by decide

/-! ### Witnesses: a state and operands that meet the hypotheses of each statement -/

theorem witness_ready : State.reset.ready = true := by decide

theorem witness_BadConfigurationIsRefused :
    ∃ s : State, ¬ 1 ≤ s.cfg.tRec := ⟨{ State.reset with cfg := { tRec := 0 } }, by decide⟩

theorem witness_StepRunsTheDecodedCommand :
    ∃ s : State, s.cfg.ok = true ∧ s.inputs = .write 8 regCmd 0x01#8 :: [] ∧ decode 0x01#8 = .command .reset :=
  ⟨stateWith Block.reset [.write 8 regCmd 0x01#8], by decide⟩

theorem witness_AcceptedCommandStartsItsFirstPhase :
    State.reset.ready = true ∧ ∃ t, exec .readBit State.reset = .next t := ⟨by decide, _, rfl⟩

theorem witness_CommandIsTurnedAwayWhileBusyOrInReset :
    (∃ s : State, s.cfg.ok = true ∧ s.rst = true)
    ∧ ∃ s : State, s.cfg.ok = true ∧ s.rst = false ∧ s.blk.busy = true :=
  ⟨⟨State.reset.setRst true, by decide⟩, stateWith (blockIn .rdMeas 1 .readBit) [], by decide⟩

theorem witness_CommandWriteFrame :
    (∃ t, exec .writeByte State.reset = .next t)
    ∧ ∃ s t : State, exec .readByte s = .next t ∧ s.ready = false :=
  ⟨⟨_, rfl⟩, stateWith (blockIn .wrLow 1 .writeBit) [], _, rfl, by decide⟩

theorem witness_StepsRunTheTicks :
    ∃ s : State, s.cfg.ok = true ∧ s.rst = false ∧ s.inputs = tickInputs [false, true] ++ [.read 8 regStatus] :=
  ⟨stateWith (blockIn .rstSamp 2 .reset) [.tick false, .tick true, .read 8 regStatus], by decide⟩

theorem witness_EmptyEventListIsATick : ∃ s : State, s.cfg.ok = true ∧ s.rst = false ∧ s.inputs = [] :=
  ⟨State.reset, by decide⟩

/-- One state per address, with the block idle and with it busy. -/
theorem witness_HostReadTable (a : Addr) :
    (∃ s : State, s.cfg.ok = true ∧ s.rst = false ∧ s.inputs = .read 8 a :: [] ∧ s.blk.ph = .idle)
    ∧ ∃ s : State, s.cfg.ok = true ∧ s.rst = false ∧ s.inputs = .read 8 a :: [] ∧ s.blk.ph ≠ .idle :=
  ⟨⟨stateWith Block.reset [.read 8 a], test_wf_default, rfl, rfl, rfl⟩,
    stateWith (blockIn .rdMeas 1 .readBit) [.read 8 a], test_wf_default, rfl, rfl, fun h => by cases h⟩

/-- One state per address and value, with the block idle and with it busy; a legal and an illegal CMD byte; the first and
the last of the addresses without effect. -/
theorem witness_HostWriteTable (a : Addr) (v : Byte) :
    (∃ s : State, s.cfg.ok = true ∧ s.rst = false ∧ s.inputs = .write 8 a v :: [] ∧ s.blk.ph = .idle)
    ∧ (∃ s : State, s.cfg.ok = true ∧ s.rst = false ∧ s.inputs = .write 8 a v :: [] ∧ s.blk.ph ≠ .idle)
    ∧ decode 0x05#8 = .command .readByte ∧ decode 0x06#8 = .illegal .reservedOpcode
    ∧ 4 ≤ (0x4#3).toNat ∧ 4 ≤ (0x7#3).toNat :=
  ⟨⟨stateWith Block.reset [.write 8 a v], test_wf_default, rfl, rfl, rfl⟩,
    ⟨stateWith (blockIn .rdMeas 1 .readBit) [.write 8 a v], test_wf_default, rfl, rfl, fun h => by cases h⟩, by decide⟩

theorem witness_OtherAccessWidthsAreRefused :
    (∃ s : State, s.cfg.ok = true ∧ s.inputs = .read 7 regData :: [])
    ∧ (∃ s : State, s.cfg.ok = true ∧ s.inputs = .write 9 regCmd 0x01#8 :: []) ∧ (7 : Nat) ≠ 8 ∧ (9 : Nat) ≠ 8 :=
  ⟨⟨stateWith Block.reset [.read 7 regData], by decide⟩,
    ⟨stateWith Block.reset [.write 9 regCmd 0x01#8], by decide⟩, by decide, by decide⟩

/-- One state per clause, each stepping to a next state. -/
theorem witness_OneErrorPerAccess :
    (∃ s t : State, s.rst = false ∧ step s = .next t ∧ s.inputs = .write 8 regConfig 0x01#8 :: [] ∧ s.blk.busy = true)
    ∧ (∃ s t : State, s.rst = false ∧ step s = .next t ∧ s.inputs = .write 8 regCmd 0x06#8 :: [] ∧ s.blk.busy = false
        ∧ decode 0x06#8 = .illegal .reservedOpcode)
    ∧ (∃ s t : State, s.rst = false ∧ step s = .next t ∧ s.inputs = .write 8 regCmd 0x05#8 :: [] ∧ s.blk.busy = false
        ∧ decode 0x05#8 = .command .readByte)
    ∧ (∃ s t : State, s.rst = false ∧ step s = .next t ∧ s.inputs = .write 8 regStatus 0x30#8 :: [])
    ∧ ∃ s t : State, s.rst = false ∧ step s = .next t ∧ s.inputs = .tick true :: [] :=
  ⟨⟨stateWith (blockIn .wrLow 1 .writeBit) [.write 8 regConfig 0x01#8], _, rfl, rfl, rfl, by decide⟩,
    ⟨stateWith Block.reset [.write 8 regCmd 0x06#8], _, rfl, rfl, rfl, by decide, by decide⟩,
    ⟨stateWith Block.reset [.write 8 regCmd 0x05#8], _, rfl, rfl, rfl, by decide, by decide⟩,
    ⟨stateWith Block.reset [.write 8 regStatus 0x30#8], _, rfl, rfl, rfl⟩,
    ⟨stateWith Block.reset [.tick true], _, rfl, rfl, rfl⟩⟩

/-- Both flags set, and a STATUS write that clears one of them. -/
theorem witness_ErrorFlagsAreSticky :
    ∃ s t : State, s.rst = false ∧ step s = .next t ∧ s.blk.errCmd = true ∧ s.blk.errBusy = true
      ∧ ∀ rest, s.inputs ≠ .rst true :: rest :=
  ⟨stateWith { Block.reset with errCmd := true, errBusy := true } [.write 8 regStatus 0x20#8], _, rfl, rfl, rfl, rfl,
    fun _ h => by cases h⟩

theorem witness_RespectfulHostCausesNoError :
    ∃ s t : State, s.rst = false ∧ s.inputs = .write 8 regCmd 0x05#8 :: []
      ∧ (Input.write 8 regCmd 0x05#8).respectful s.blk = true ∧ step s = .next t :=
  ⟨stateWith Block.reset [.write 8 regCmd 0x05#8], _, rfl, rfl, by decide, rfl⟩

theorem witness_PseudoInstructionsAreNotRejected :
    ∃ s : State, s.ready = true
      ∧ s.inputs = hostInputs (Pseudo.wrBit true).expand [[[true]], [], [[true, false], [true]]] ++ [] :=
  ⟨stateWith Block.reset (hostInputs (Pseudo.wrBit true).expand [[[true]], [], [[true, false], [true]]]), by decide,
    by simp [stateWith]⟩

theorem witness_RstAbortsAndHolds :
    (∃ s : State, s.cfg.ok = true ∧ s.inputs = .rst true :: [] ∧ s.blk.busy = true)
    ∧ (∀ i : Input, ∃ s : State, s.cfg.ok = true ∧ s.rst = true ∧ s.blk = Block.reset ∧ s.inputs = i :: []) :=
  ⟨⟨stateWith (blockIn .rstSamp 4 .reset) [.rst true], by decide⟩,
    fun i => ⟨(stateWith Block.reset [i]).setRst true, test_wf_default, rfl, rfl, rfl⟩⟩

theorem witness_LineIsDrivenInThreePhases :
    (blockIn .wrLow 1 .writeBit).driveLow = true ∧ (blockIn .rdMeas 1 .readBit).driveLow = false := by decide

theorem witness_LineIsUsedInTwoPhases :
    (blockIn .rdPad 3 .readBit).ph ≠ .rstSamp ∧ (blockIn .rdPad 3 .readBit).ph ≠ .rdMeas := by decide

theorem witness_IdleTickChangesNothing :
    ∃ s : State, s.cfg.ok = true ∧ s.rst = false ∧ s.blk.ph = .idle ∧ s.inputs = .tick false :: [] :=
  ⟨stateWith Block.reset [.tick false], by decide⟩

/-- Blocks that meet the guards of the tick's frame, for each time of log 22. -/
theorem witness_TickFrame :
    ¬ ((blockIn .rstSamp 2 .reset).ph = .rstSamp ∧ (blockIn .rstSamp 2 .reset).tmr = 1#10)
    ∧ ¬ ((blockIn .rdMeas 1 .readBit).ph = .rdMeas ∧ false = true)
    ∧ (1 : Nat) ≠ (blockIn .rdMeas 1 .readBit).idx.toNat
    ∧ ({ rdurTime := .atCommandEnd } : Params).rdurTime = .atCommandEnd
    ∧ ¬ ((blockIn .rdMeas 1 .readBit).ph = .rdMeas ∧ (Block.tick Params.default true (blockIn .rdMeas 1 .readBit)).ph = .idle)
    ∧ ({ rdurTime := .atMeasurement } : Params).rdurTime = .atMeasurement := by decide

/-- A step that changes PRESENCE, at the last tick of the window. -/
theorem witness_OnlyResetCommandWritesPresence :
    ∃ s t : State, step s = .next t ∧ t.blk.presence ≠ s.blk.presence :=
  ⟨stateWith { blockIn .rstSamp 1 .reset with cnt := 60#9 } [.tick true], _, rfl, by decide⟩

/-- A step that changes PULLUP_EN. -/
theorem witness_OnlyConfigWritesPullup :
    ∃ s t : State, step s = .next t ∧ t.blk.pullupEn ≠ s.blk.pullupEn :=
  ⟨stateWith Block.reset [.write 8 regConfig 0x01#8], _, rfl, by decide⟩

/-- A write-0 slot and a write-1 slot. -/
theorem witness_WriteSlotWaveform :
    (Params.default.ok = true ∧ (blockIn .wrLow 61 .writeBit).ph = .wrLow
      ∧ (blockIn .wrLow 61 .writeBit).tmr.toNat = Params.default.tW0l
      ∧ (List.replicate 62 true).length = max Params.default.tW0l Params.default.tSlot + Params.default.tRec)
    ∧ ∃ b : Block, b.ph = .wrLow ∧ b.data.getLsbD b.idx.toNat = true ∧ b.tmr.toNat = Params.default.tW1l
      ∧ (List.replicate 61 false).length = max Params.default.tW1l Params.default.tSlot + Params.default.tRec :=
  ⟨by decide, { blockIn .wrLow 6 .writeByte with data := 0x80#8, idx := 7#3 }, by decide⟩

theorem witness_ResetMeasuresPresence :
    State.reset.ready = true ∧ (List.replicate 980 true).length = State.reset.cfg.tRstl + State.reset.cfg.tPdw :=
  ⟨by decide, by rw [List.length_replicate]; rfl⟩

/-- DATA[0] = 0, and DATA[0] = 1. -/
theorem witness_WriteBitSendsOneSlot :
    (State.reset.ready = true ∧ State.reset.blk.data.getLsbD 0 = false
      ∧ (List.replicate 62 true).length = State.reset.cfg.tW0l + (State.reset.cfg.tSlot - State.reset.cfg.tW0l)
        + State.reset.cfg.tRec)
    ∧ ∃ s : State, s.ready = true ∧ s.blk.data.getLsbD 0 = true
      ∧ (List.replicate 61 true).length = s.cfg.tW1l + (s.cfg.tSlot - s.cfg.tW1l) + s.cfg.tRec :=
  ⟨by decide, stateWith { Block.reset with data := 0x01#8 } [], by decide⟩

/-- A read slot at both sides of T_RTH and of the last pad (RB3, RB4, RB6, RB7), and one that saturates (RB11). -/
theorem witness_ReadBitMeasuresOneSlot :
    State.reset.ready = true ∧ ∀ d ∈ [0, 14, 15, 50, 51, 256], ∃ envs, IsReadSlot State.reset.cfg d envs :=
  ⟨by decide, fun d _ => ⟨_, List.replicate 2 true,
    List.replicate (readPad State.reset.cfg (classify State.reset.cfg d) d) true, by decide, by simp, rfl⟩⟩

theorem witness_WriteByteSendsEightSlots :
    ∃ s : State, s.ready = true ∧ s.blk.data = 0xCC#8
      ∧ (List.replicate 492 true).length = writeByteTicks s.cfg s.blk.data :=
  ⟨stateWith { Block.reset with data := 0xCC#8 } [], by decide, rfl, by rw [List.length_replicate]; decide⟩

/-- Eight slots of the same duration. -/
theorem witness_ReadByteMeasuresEightSlots (d : Nat) :
    State.reset.ready = true ∧ ∃ slots : List (Nat × List Bool), slots.length = 8
      ∧ ∀ p ∈ slots, IsReadSlot State.reset.cfg p.1 p.2 :=
  ⟨by decide, List.replicate 8 (d, List.replicate 2 true ++ List.replicate d false ++ true ::
      List.replicate (readPad State.reset.cfg (classify State.reset.cfg d) d) true), by simp, fun p hp => by
    obtain rfl := (List.mem_replicate.1 hp).2
    exact ⟨List.replicate 2 true, _, by decide, List.length_replicate, rfl⟩⟩

theorem witness_LoopbackRoundTrip (r : RdurTime) :
    ∃ s : State, s.ready = true ∧ s.cfg = { Params.default with rdurTime := s.cfg.rdurTime } ∧ s.cfg.rdurTime = r
      ∧ s.blk.data = 0xA5#8 :=
  ⟨{ stateWith { Block.reset with data := 0xA5#8 } [] with cfg := { rdurTime := r } }, by cases r <;> decide⟩

theorem witness_ReadResultForgetsData : ∃ s : State, s.ready = true ∧ s.blk.data ≠ 0x00#8 :=
  ⟨stateWith { Block.reset with data := 0xA5#8 } [], by decide⟩

theorem witness_StuckLowLineHangs : ∃ s : State, s.cfg.ok = true ∧ s.rst = false ∧ s.blk.ph = .rdMeas :=
  ⟨stateWith (blockIn .rdMeas 1 .readBit) [], by decide⟩

theorem witness_SaturationChangesNoResult :
    Params.default.ok = true ∧ ((14 : Nat) ≤ 14 ∧ (15 : Nat) ≤ 15 ∧ (50 : Nat) ≤ 50 ∧ (51 : Nat) ≤ 51) := by decide

/-- A block in its reset pulse meets the block's invariant. -/
theorem witness_rstLow_inv : (blockIn .rstLow 480 .reset).Inv Params.default := by
  constructor <;> simp [blockIn, Block.reset, Phase.timed, Block.phaseTicks, Phase.ops, Block.busy, presenceOf]

theorem witness_CommandsButReadsEnd :
    Params.default.ok = true ∧ (blockIn .rstLow 480 .reset).Inv Params.default
      ∧ (blockIn .rstLow 480 .reset).ph = .rstLow
      ∧ max (resetTicks Params.default) (8 * max (writeSlotTicks Params.default true)
          (writeSlotTicks Params.default false)) ≤ (List.replicate 980 true).length :=
  ⟨by decide, witness_rstLow_inv, rfl, by rw [List.length_replicate]; decide⟩

/-- A state that meets the invariant and steps, in the middle of a command. -/
theorem witness_StepKeepsInvariant : ∃ s t : State, s.Inv ∧ step s = .next t ∧ s.blk.busy = true :=
  ⟨stateWith (blockIn .rstLow 480 .reset) [.tick true], _,
    ⟨test_wf_default, witness_rstLow_inv, fun h => by cases h⟩, rfl, by decide⟩

/-- A read slot on a low line, a rejected write and a STATUS read between its ticks. -/
theorem witness_HostCannotDisturbACommand :
    ∃ (s : State) (l : List Input), s.cfg.ok = true ∧ s.rst = false ∧ s.inputs = l ++ []
      ∧ (∀ i ∈ l, i.ordinary = true) ∧ ∀ k, (s.blk.ticks s.cfg ((envLevels l).take k)).busy = true :=
  ⟨stateWith (blockIn .rdMeas 1 .readBit) [.tick false, .write 8 regData 0x00#8, .read 8 regStatus],
    [.tick false, .write 8 regData 0x00#8, .read 8 regStatus], by decide, rfl, rfl, by decide, fun k => by
      rw [show envLevels [.tick false, .write 8 regData 0x00#8, .read 8 regStatus] = [false] from rfl]
      cases k with
      | zero => rfl
      | succ k => rw [List.take_succ_cons, List.take_nil]; rfl⟩

/-- Ticks that change PRESENCE, PCNT and RDUR, under each reading of log 22. -/
theorem witness_ResultsAreWrittenInTheLastTick :
    (∃ b : Block, (b.tick Params.default true).presence ≠ b.presence ∧ (b.tick Params.default true).pcnt ≠ b.pcnt)
    ∧ (∃ (cfg : Params) (b : Block), cfg.rdurTime = .atCommandEnd ∧ (b.tick cfg true).rdur ≠ b.rdur)
    ∧ ∃ (cfg : Params) (b : Block), cfg.rdurTime = .atMeasurement ∧ (b.tick cfg true).rdur ≠ b.rdur :=
  ⟨⟨{ blockIn .rstSamp 1 .reset with cnt := 60#9 }, by decide⟩,
    ⟨{ rdurTime := .atCommandEnd }, { blockIn .rdPad 1 .readBit with dur := 14#8 }, by decide⟩,
    { rdurTime := .atMeasurement }, { blockIn .rdMeas 1 .readByte with dur := 14#8 }, by decide⟩

/-- A READ_BIT in its pad, with RDUR still the old one under the reading of R149 and R306; and, under that of R176, a
WRITE_BIT in its slot and a READ_BIT in its measurement. -/
theorem witness_RunningCommandShowsOldResults :
    (∃ s : State, s.ready = true ∧ s.cfg.rdurTime = .atCommandEnd
      ∧ ∃ t, exec .readBit s = .next t ∧ (t.blk.ticks s.cfg [true, true, false, true]).busy = true)
    ∧ State.reset.ready = true
    ∧ (∃ t, exec .writeBit State.reset = .next t ∧ (t.blk.ticks State.reset.cfg [true]).busy = true)
    ∧ ∃ t, exec .readBit State.reset = .next t ∧ (t.blk.ticks State.reset.cfg [true, true, false]).busy = true
      ∧ (t.blk.ticks State.reset.cfg [true, true, false]).idx = 0#3
      ∧ (t.blk.ticks State.reset.cfg [true, true, false]).ph ≠ .rdPad :=
  ⟨⟨{ State.reset with cfg := { rdurTime := .atCommandEnd } }, by decide, by decide, _, rfl, by decide⟩, by decide,
    ⟨_, rfl, by decide⟩, _, rfl, by decide, by decide, by decide⟩

/-- Slots of one duration, any number of them from one to eight, with the reset state's configuration. -/
theorem witness_RdurHoldsTheLastSlot (d n : Nat) (hn : n < 8) :
    State.reset.ready = true ∧ State.reset.cfg.rdurTime = .atMeasurement
      ∧ ∃ (slots : List (Nat × List Bool)) (p : Nat × List Bool), slots.length = n + 1 ∧ slots.length ≤ 8
        ∧ slots.getLast? = some p ∧ p.1 = d ∧ ∀ q ∈ slots, IsReadSlot State.reset.cfg q.1 q.2 :=
  ⟨by decide, by decide, List.replicate (n + 1) (d, List.replicate 2 true ++ List.replicate d false ++ true ::
      List.replicate (readPad State.reset.cfg (classify State.reset.cfg d) d) true), _, by simp, by simpa using hn,
    by rw [List.getLast?_replicate]; rfl, rfl, fun q hq => by
    obtain rfl := (List.mem_replicate.1 hq).2
    exact ⟨List.replicate 2 true, _, by decide, List.length_replicate, rfl⟩⟩

end Sys2Proof.Tests
end

section
/-! The refusal of a configuration outside R9 (00_scope.md), for a step and for every command. -/

namespace Sys2Proof.Machine

/-- The constraints R9 names are among those of `Params.ok`, which also bounds T_RDL (log 7). -/
theorem listed_constraints_of_ok {p : Params} (h : p.ok = true) :
    1 ≤ p.tRstl ∧ 1 ≤ p.tPdw ∧ 1 ≤ p.tW1l ∧ 1 ≤ p.tW0l ∧ 1 ≤ p.tRdl ∧ 1 ≤ p.tRec
      ∧ p.tPdw ≤ 2 ^ 9 - 1
      ∧ p.tRstl ≤ 2 ^ 10 - 1 ∧ p.tPdw ≤ 2 ^ 10 - 1 ∧ p.tW0l ≤ 2 ^ 10 - 1
      ∧ p.tW1l ≤ 2 ^ 10 - 1 ∧ p.tSlot + p.tRec ≤ 2 ^ 10 - 1
      ∧ p.tRp0 ≤ 2 ^ 10 - 1 ∧ p.tRp1 ≤ 2 ^ 10 - 1
      ∧ p.pMin ≤ p.pMax
      ∧ max p.tRth (max p.tRp0 p.tRp1) ≤ 255 := by
  obtain ⟨⟨hRstl, hPdw, hW1l, hW0l, hRdl, hRec⟩, hCount,
    ⟨fRstl, fPdw, fW0l, fW1l, fSlot, fRp0, fRp1, -⟩, hBounds, dRth, dRp0, dRp1⟩ := (Params.ok_iff p).1 h
  exact ⟨hRstl, hPdw, hW1l, hW0l, hRdl, hRec, hCount, fRstl, fPdw, fW0l, fW1l, fSlot, fRp0, fRp1, hBounds,
    max_le dRth (max_le dRp0 dRp1)⟩

theorem step_of_bad_config {s : State} (hc : s.cfg.ok = false) : step s = .refused .configuration := by
  simp [step, hc]

theorem exec_of_bad_config (i : Instr) {s : State} (hc : s.cfg.ok = false) :
    exec i s = .refused .configuration := by
  rw [exec_eq_guardedWrite, guardedWrite_of_bad_config hc]

/-- Settles O3: a configuration that fails a constraint of R9 fails `Params.ok`, the first thing that a step and the
guarded write behind every command look at. -/
theorem badConfigurationIsRefused : Obligations.BadConfigurationIsRefused := by
  unfold Obligations.BadConfigurationIsRefused
  refine ⟨fun s hviolated => ?_, by decide⟩
  have hc : s.cfg.ok = false := Bool.eq_false_iff.2 (mt listed_constraints_of_ok hviolated)
  exact ⟨step_of_bad_config hc, fun i => exec_of_bad_config i hc⟩

end Sys2Proof.Machine
end

section
/-! The invariant of a run (Block.Inv, State.Inv): the part that holds of every phase, entering a phase, each arm of the
sequencer, the acceptance of a command, and then every step. -/

namespace Sys2Proof.Machine

/-! ### Which commands write and which read -/

theorem Block.opWrites_eq_true_iff (b : Block) : b.opWrites = true ↔ b.op ∈ Phase.wrLow.ops := by
  simp [Block.opWrites, Phase.ops]

/-- No read command writes: the two groups of R148 share no opcode. -/
theorem Block.opWrites_of_mem_rdLow_ops {b : Block} (h : b.op ∈ Phase.rdLow.ops) : b.opWrites = false := by
  obtain h | h : b.op = Instr.readBit.opcode ∨ b.op = Instr.readByte.opcode := by simpa [Phase.ops] using h
  all_goals rw [Block.opWrites, h]; decide

/-! ### The invariant phase by phase -/

/-- The part of the invariant that says the same in every phase: `cnt` and PCNT within T_PDW, PRESENCE in agreement with
PCNT (R46, R42, R222). -/
structure Block.CountsOk (cfg : Params) (b : Block) : Prop where
  count : b.cnt.toNat ≤ cfg.tPdw
  pcnt : b.pcnt.toNat ≤ cfg.tPdw
  presence : 1 ≤ cfg.pMin → b.presence = presenceOf cfg b.pcnt.toNat

section
variable {cfg : Params} {b : Block}

theorem Block.Inv.countsOk (h : b.Inv cfg) : b.CountsOk cfg :=
  ⟨h.count, h.pcnt, h.presence⟩

/-- A command in phase `p` may go on to any phase `q` of the same commands (R148). -/
theorem Block.Inv.op_mem_ops (h : b.Inv cfg) {p q : Phase} (hp : b.ph = p) (hbusy : p ≠ .idle) (hops : p.ops = q.ops) :
    b.op ∈ q.ops := by
  subst hp; exact hops ▸ h.command (b.busy_eq_true_iff.2 hbusy)

/-- IDLE asks nothing more than the counts. -/
theorem Block.CountsOk.inv_of_idle (h : b.CountsOk cfg) (hp : b.ph = .idle) : b.Inv cfg where
  timer := by simp [hp, Phase.timed]
  count := h.count
  window := by simp [hp]
  pcnt := h.pcnt
  presence := h.presence
  command := by simp [hp]
  index := by simp [hp]
  unread := by simp [hp]
  unreadPad := by simp [hp]

/-- The flags, PULLUP_EN and RDUR are free: the invariant does not speak of them. -/
theorem Block.Inv.setFree (h : b.Inv cfg) (busy cmd pullup : Bool) (rdur : Duration) :
    Block.Inv cfg { b with errBusy := busy, errCmd := cmd, pullupEn := pullup, rdur := rdur } :=
  ⟨h.timer, h.count, h.window, h.pcnt, h.presence, h.command, h.index, h.unread, h.unreadPad⟩

/-- Entering a timed phase for its whole length. -/
theorem Block.CountsOk.inv_enter (h : b.CountsOk cfg) {p : Phase} {n : Nat} (h1 : 1 ≤ n) (hfit : n ≤ 1023)
    (hlen : n ≤ (b.enter p n).phaseTicks cfg) (hwindow : p = .rstSamp → b.cnt.toNat + n ≤ cfg.tPdw)
    (hop : b.op ∈ p.ops) (hidx : b.opIsByte = false → b.idx = 0#3)
    (hunread : p = .rdLow ∨ p = .rdMeas → ∀ j, b.idx.toNat ≤ j → b.data.getLsbD j = false)
    (hpad : p = .rdPad → ∀ j, b.idx.toNat < j → b.data.getLsbD j = false) : (b.enter p n).Inv cfg where
  timer _ := by rw [Block.enter_tmr, timer_toNat hfit]; exact ⟨h1, hlen⟩
  count := h.count
  window hp := by rw [Block.enter_tmr, timer_toNat hfit]; exact hwindow hp
  pcnt := h.pcnt
  presence := h.presence
  command _ := hop
  index _ := hidx
  unread := hunread
  unreadPad := hpad

/-- A tick that only counts down. -/
theorem Block.Inv.countDown (h : b.Inv cfg) (hp : b.ph.countsDown = true) (ht : b.tmr ≠ 1#10) :
    b.countDown.Inv cfg where
  timer htimed := by
    obtain ⟨hlow, hhigh⟩ := h.timer htimed
    have hd : (b.tmr - 1#10).toNat = b.tmr.toNat - 1 := by bv_omega
    have hlen : b.countDown.phaseTicks cfg = b.phaseTicks cfg := rfl
    rw [Block.countDown_tmr, hd, hlen]
    exact ⟨by bv_omega, by omega⟩
  count := h.count
  window hw := by rw [Block.countDown_ph] at hw; simp [hw, Phase.countsDown] at hp
  pcnt := h.pcnt
  presence := h.presence
  command := h.command
  index := h.index
  unread := h.unread
  unreadPad := h.unreadPad

/-! ### Slots -/

/-- A slot starts within the invariant when, for a read, no bit from its own on is measured. -/
theorem Block.CountsOk.inv_startSlot (h : b.CountsOk cfg) (hc : cfg.ok = true)
    (hop : b.op ∈ Phase.wrLow.ops ∨ b.op ∈ Phase.rdLow.ops) (hidx : b.opIsByte = false → b.idx = 0#3)
    (hunread : b.op ∈ Phase.rdLow.ops → ∀ j, b.idx.toNat ≤ j → b.data.getLsbD j = false) :
    (b.startSlot cfg).Inv cfg := by
  rcases hop with hw | hr
  · rw [Block.startSlot_of_writes cfg (b.opWrites_eq_true_iff.2 hw)]
    obtain ⟨h1, hfit⟩ := writeLow_bounds hc b.slotBit
    exact h.inv_enter h1 hfit le_rfl (by simp) hw hidx (by simp) (by simp)
  · rw [Block.startSlot_of_reads cfg (Block.opWrites_of_mem_rdLow_ops hr)]
    obtain ⟨⟨-, -, -, -, h1, -⟩, -, ⟨-, -, -, -, -, -, -, hfit⟩, -⟩ := (Params.ok_iff cfg).1 hc
    exact h.inv_enter h1 hfit le_rfl (by simp) hr hidx (fun _ => hunread hr) (by simp)

/-- A slot ends within the invariant when, for a read, no bit after its own is measured. -/
theorem Block.CountsOk.inv_finishSlot (h : b.CountsOk cfg) (hc : cfg.ok = true)
    (hop : b.op ∈ Phase.wrLow.ops ∨ b.op ∈ Phase.rdLow.ops)
    (hunread : b.op ∈ Phase.rdLow.ops → ∀ j, b.idx.toNat < j → b.data.getLsbD j = false) :
    (b.finishSlot cfg).Inv cfg := by
  obtain ⟨hbyte, hi, heq⟩ | ⟨-, heq⟩ := Block.finishSlot_cases cfg b
  · rw [heq]
    have hnext : (b.idx + 1#3).toNat = b.idx.toNat + 1 := by bv_omega
    have hcounts : Block.CountsOk cfg { b with idx := b.idx + 1#3 } := ⟨h.count, h.pcnt, h.presence⟩
    refine hcounts.inv_startSlot hc hop (fun hbit => ?_) (fun hr j hj => ?_)
    · exact absurd (hbyte.symm.trans hbit) (by decide)
    · exact hunread hr j (by rw [hnext] at hj; omega)
  · rw [heq]
    have hcounts : b.toIdle.CountsOk cfg := ⟨h.count, h.pcnt, h.presence⟩
    exact hcounts.inv_of_idle rfl

/-- Ending a read slot is ending a slot, RDUR apart. -/
theorem Block.CountsOk.inv_finishReadSlot (h : b.CountsOk cfg) (hc : cfg.ok = true) (hop : b.op ∈ Phase.rdLow.ops)
    (hunread : ∀ j, b.idx.toNat < j → b.data.getLsbD j = false) : (b.finishReadSlot cfg).Inv cfg :=
  (h.inv_finishSlot hc (.inr hop) fun _ => hunread).setFree _ _ _ _

/-! ### The arms of the sequencer -/

theorem Block.countWith_toNat {e : Bool} (h : b.cnt.toNat < 511) :
    (b.countWith e).toNat = b.cnt.toNat + (!e).toNat := by
  cases e
  · rw [Block.countWith, if_neg (by simp), Bool.not_false, Bool.toNat_true]; bv_omega
  · simp [Block.countWith]

theorem Block.Inv.tick_rstLow (h : b.Inv cfg) (hc : cfg.ok = true) (hp : b.ph = .rstLow) (e : Bool) :
    (b.tick cfg e).Inv cfg := by
  rw [Block.tick_rstLow hp]
  split
  · obtain ⟨⟨-, h1, -⟩, hfit, -⟩ := (Params.ok_iff cfg).1 hc
    have hcounts : Block.CountsOk cfg { b with cnt := 0#9 } := ⟨Nat.zero_le _, h.pcnt, h.presence⟩
    exact hcounts.inv_enter (p := .rstSamp) h1 (by omega) le_rfl (by simp) (h.op_mem_ops hp nofun rfl)
      (h.index (by simp [hp])) (by simp) (by simp)
  · exact h.countDown (by simp [hp, Phase.countsDown]) ‹_›

/-- In the window the count stays within the ticks gone by, so that neither `cnt` nor PCNT exceeds T_PDW (R221). -/
theorem Block.Inv.tick_rstSamp (h : b.Inv cfg) (hc : cfg.ok = true) (hp : b.ph = .rstSamp) (e : Bool) :
    (b.tick cfg e).Inv cfg := by
  obtain ⟨-, hfit, -⟩ := (Params.ok_iff cfg).1 hc
  obtain ⟨h1, -⟩ := h.timer (by simp [hp, Phase.timed])
  have hwindow := h.window hp
  have he := Bool.toNat_le (!e)
  have hcount := b.countWith_toNat (e := e) (by omega)
  rw [Block.tick_rstSamp hp]
  split
  · have hcounts : Block.CountsOk cfg
        { b.toIdle with presence := presenceOf cfg (b.countWith e).toNat, pcnt := b.countWith e } :=
      ⟨h.count, by simp only; omega, fun _ => rfl⟩
    exact hcounts.inv_of_idle rfl
  · have hd : (b.tmr - 1#10).toNat = b.tmr.toNat - 1 := by bv_omega
    have h2 : 2 ≤ b.tmr.toNat := by bv_omega
    exact {
      timer := fun _ => by simp only [Block.countDown_tmr, hd, Block.phaseTicks, Block.countDown_ph, hp]; omega
      count := by simp only; omega
      window := fun _ => by simp only [Block.countDown_tmr]; omega
      pcnt := h.pcnt
      presence := h.presence
      command := h.command
      index := h.index
      unread := h.unread
      unreadPad := h.unreadPad }

theorem Block.Inv.tick_wrLow (h : b.Inv cfg) (hc : cfg.ok = true) (hp : b.ph = .wrLow) (e : Bool) :
    (b.tick cfg e).Inv cfg := by
  rw [Block.tick_wrLow hp]
  split
  · obtain ⟨h1, hfit⟩ := writeHigh_bounds hc b.slotBit
    exact h.countsOk.inv_enter (p := .wrHigh) h1 hfit le_rfl (by simp) (h.op_mem_ops hp nofun rfl)
      (h.index (by simp [hp])) (by simp) (by simp)
  · exact h.countDown (by simp [hp, Phase.countsDown]) ‹_›

theorem Block.Inv.tick_wrHigh (h : b.Inv cfg) (hc : cfg.ok = true) (hp : b.ph = .wrHigh) (e : Bool) :
    (b.tick cfg e).Inv cfg := by
  rw [Block.tick_wrHigh hp]
  split
  · have hop : b.op ∈ Phase.wrLow.ops := h.op_mem_ops hp nofun rfl
    refine h.countsOk.inv_finishSlot hc (.inl hop) fun hr => ?_
    exact absurd (b.opWrites_eq_true_iff.2 hop) (by simp [Block.opWrites_of_mem_rdLow_ops hr])
  · exact h.countDown (by simp [hp, Phase.countsDown]) ‹_›

theorem Block.Inv.tick_rdLow (h : b.Inv cfg) (hp : b.ph = .rdLow) (e : Bool) : (b.tick cfg e).Inv cfg := by
  rw [Block.tick_rdLow hp]
  split
  · exact {
      timer := by simp [Phase.timed]
      count := h.count
      window := by simp
      pcnt := h.pcnt
      presence := h.presence
      command := fun _ => h.op_mem_ops hp nofun rfl
      index := fun _ => h.index (by simp [hp])
      unread := fun _ => h.unread (.inl hp)
      unreadPad := by simp }
  · exact h.countDown (by simp [hp, Phase.countsDown]) ‹_›

/-- The measurement counts in `dur`, which the invariant leaves free before the pad; its end replaces the bit of the slot
and leaves the bits after it 0. -/
theorem Block.Inv.tick_rdMeas (h : b.Inv cfg) (hc : cfg.ok = true) (hp : b.ph = .rdMeas) (e : Bool) :
    (b.tick cfg e).Inv cfg := by
  cases e with
  | false =>
    rw [Block.tick_rdMeas_low hp]
    exact {
      timer := by simp [hp, Phase.timed]
      count := h.count
      window := h.window
      pcnt := h.pcnt
      presence := h.presence
      command := h.command
      index := h.index
      unread := h.unread
      unreadPad := h.unreadPad }
  | true =>
    have hop : b.op ∈ Phase.rdLow.ops := h.op_mem_ops hp nofun rfl
    have hcounts : (b.storeMeasured cfg).CountsOk cfg := ⟨h.count, h.pcnt, h.presence⟩
    have hunread : ∀ j, b.idx.toNat < j → (b.storeMeasured cfg).data.getLsbD j = false := fun j hj => by
      rw [Block.storeMeasured_data, setBit_getLsbD, if_neg (by omega)]
      exact h.unread (.inr hp) j (by omega)
    rw [Block.tick_rdMeas_high hp]
    split
    · exact hcounts.inv_finishReadSlot hc hop hunread
    · have hfit := readPad_le hc (classify cfg b.dur.toNat) b.dur.toNat
      exact hcounts.inv_enter (p := .rdPad) (by omega) (by omega) le_rfl (by simp) hop (h.index (by simp [hp]))
        (by simp) (fun _ => hunread)

theorem Block.Inv.tick_rdPad (h : b.Inv cfg) (hc : cfg.ok = true) (hp : b.ph = .rdPad) (e : Bool) :
    (b.tick cfg e).Inv cfg := by
  rw [Block.tick_rdPad hp]
  split
  · exact h.countsOk.inv_finishReadSlot hc (h.op_mem_ops hp nofun rfl) (h.unreadPad hp)
  · exact h.countDown (by simp [hp, Phase.countsDown]) ‹_›

theorem Block.Inv.tick (h : b.Inv cfg) (hc : cfg.ok = true) (e : Bool) : (b.tick cfg e).Inv cfg := by
  cases hp : b.ph with
  | idle => rw [Block.tick_idle hp]; exact h
  | rstLow => exact h.tick_rstLow hc hp e
  | rstSamp => exact h.tick_rstSamp hc hp e
  | wrLow => exact h.tick_wrLow hc hp e
  | wrHigh => exact h.tick_wrHigh hc hp e
  | rdLow => exact h.tick_rdLow hp e
  | rdMeas => exact h.tick_rdMeas hc hp e
  | rdPad => exact h.tick_rdPad hc hp e

/-! ### Host accesses and reset -/

/-- The acceptance of a command starts its first phase with `idx` at 0 and, for a read, with every bit of DATA 0. -/
theorem Block.CountsOk.inv_acceptEffect (h : b.CountsOk cfg) (hc : cfg.ok = true) (i : Instr) :
    (acceptEffect i cfg b).Inv cfg := by
  have hcmd : (b.startCommand i).CountsOk cfg := ⟨h.count, h.pcnt, h.presence⟩
  have hread : (b.startCommand i).clearData.CountsOk cfg := ⟨h.count, h.pcnt, h.presence⟩
  cases i with
  | reset =>
    obtain ⟨⟨h1, -⟩, -, ⟨hfit, -⟩, -⟩ := (Params.ok_iff cfg).1 hc
    exact hcmd.inv_enter h1 hfit le_rfl (by simp) (by simp [Phase.ops]) (fun _ => rfl) (by simp) (by simp)
  | writeBit =>
    exact hcmd.inv_startSlot hc (.inl (by simp [Phase.ops])) (fun _ => rfl) fun hr =>
      absurd hr (by simp [Phase.ops, Instr.opcode])
  | readBit =>
    exact hread.inv_startSlot hc (.inr (by simp [Phase.ops, Block.clearData])) (fun _ => rfl) (by simp)
  | writeByte =>
    exact hcmd.inv_startSlot hc (.inl (by simp [Phase.ops])) (fun _ => rfl) fun hr =>
      absurd hr (by simp [Phase.ops, Instr.opcode])
  | readByte =>
    exact hread.inv_startSlot hc (.inr (by simp [Phase.ops, Block.clearData])) (fun _ => rfl) (by simp)

theorem Block.reset_inv (cfg : Params) : Block.reset.Inv cfg := by
  have hcounts : Block.reset.CountsOk cfg :=
    { count := Nat.zero_le _
      pcnt := Nat.zero_le _
      presence := fun hmin => by
        have hzero : ¬ cfg.pMin ≤ 0 := by omega
        simp [Block.reset, presenceOf, hzero] }
  exact hcounts.inv_of_idle rfl

end

/-! ### Reset, and every step -/

section
variable {s t : State}

/-- While `rst` is 1 a host write is ignored at every address (R300). -/
theorem hostWrite_of_rst {a : Addr} {v : Byte} (hr : s.rst = true) (h : hostWrite a v s = .next t) : t = s := by
  have guarded : ∀ {effect}, guardedWrite effect s = .next t → t = s := by
    intro effect hg
    obtain ⟨-, ⟨-, rfl⟩ | ⟨hr', -⟩ | ⟨hr', -⟩⟩ := guardedWrite_cases hg
    · rfl
    all_goals simp [hr] at hr'
  obtain ⟨-, h'⟩ | ⟨-, h'⟩ | ⟨-, h'⟩ | ⟨-, h'⟩ | ⟨-, h'⟩ := hostWrite_cases a v s <;> rw [h'] at h
  · obtain ⟨i, -, h2⟩ | ⟨_, -, h2⟩ := writeCmd_cases v s <;> exact guarded (h2 ▸ h)
  · exact guarded h
  · simp only [writeStatus, hr] at h; cases h; rfl
  · exact guarded h
  · cases h; rfl

/-- A step taken while `rst` is 1 leaves the block alone or resets it. -/
theorem step_blk_of_rst (hr : s.rst = true) (h : step s = .next t) : t.blk = s.blk ∨ t.blk = Block.reset := by
  obtain ⟨-, ⟨-, rfl⟩ | ⟨e, r, -, rfl⟩ | ⟨a, r, -, rfl⟩ | ⟨a, v, r, -, hw⟩ | ⟨l, r, -, rfl⟩⟩ := step_cases h
  · exact .inr (by simp [freeTick, tickEvent, hr])
  · exact .inr (by simp [tickEvent, hr])
  · exact .inl (hostRead_frame a (s.setInputs r)).1
  · rw [hostWrite_of_rst (s := s.setInputs r) hr hw]; exact .inl rfl
  · exact .inr (by simp [rstEvent, hr])

/-- Only the event that raises `rst` leads into reset, and it resets the block at once (R300). -/
theorem step_into_rst (hr : s.rst = false) (h : step s = .next t) (ht : t.rst = true) : t.blk = Block.reset := by
  have kept : t.rst = s.rst → t.blk = Block.reset := fun heq => absurd (ht.symm.trans (heq.trans hr)) (by decide)
  obtain ⟨-, ⟨-, rfl⟩ | ⟨e, r, -, rfl⟩ | ⟨a, r, -, rfl⟩ | ⟨a, v, r, -, hw⟩ | ⟨l, r, -, rfl⟩⟩ := step_cases h
  · exact kept rfl
  · exact kept rfl
  · exact kept (hostRead_frame a (s.setInputs r)).2.2.1
  · obtain ⟨b, rfl⟩ := hostWrite_frame hw
    exact kept rfl
  · obtain rfl : l = true := ht
    rfl

/-- Outside reset every row of the step's table keeps the invariant of the block. -/
theorem Block.Inv.step (h : s.blk.Inv s.cfg) (hc : s.cfg.ok = true) (hr : s.rst = false)
    (hs : step s = .next t) : t.blk.Inv s.cfg := by
  obtain ⟨-, e, heq⟩ | ⟨-, heq⟩ | ⟨a, v, rest, -, hwrite⟩ | ⟨rest, -, heq⟩ | ⟨rest, -, heq⟩ := step_blk hr hs
  · rw [heq]; exact h.tick hc e
  · rw [heq]; exact h
  · obtain ⟨-, -, heq⟩ | ⟨-, -, i, -, heq⟩ | ⟨-, -, why, -, heq⟩ | ⟨-, hidle, heq⟩ | ⟨-, heq⟩ | ⟨-, -, heq⟩
      | ⟨-, heq⟩ := hwrite <;> rw [heq]
    · exact h.setFree _ _ _ _
    · exact h.countsOk.inv_acceptEffect hc i
    · exact h.setFree _ _ _ _
    · have hcounts : Block.CountsOk s.cfg { s.blk with data := v } := ⟨h.count, h.pcnt, h.presence⟩
      exact hcounts.inv_of_idle (s.blk.busy_eq_false_iff.1 hidle)
    · exact h.setFree _ _ _ _
    · exact h.setFree _ _ _ _
    · exact h
  · rw [heq]; exact Block.reset_inv s.cfg
  · rw [heq]; exact h

theorem State.Inv.step_of_not_rst (h : s.Inv) (hr : s.rst = false) (hs : step s = .next t) : t.Inv where
  config := step_cfg hs ▸ h.config
  block := step_cfg hs ▸ h.block.step h.config hr hs
  reset := step_into_rst hr hs

theorem State.Inv.step_of_rst (h : s.Inv) (hr : s.rst = true) (hs : step s = .next t) : t.Inv := by
  have hreset : t.blk = Block.reset := (step_blk_of_rst hr hs).elim (fun heq => heq.trans (h.reset hr)) id
  exact ⟨step_cfg hs ▸ h.config, hreset ▸ Block.reset_inv t.cfg, fun _ => hreset⟩

end

/-- Settles O39: outside reset by the arms of the sequencer and the acceptance of commands, and in reset because the
block holds its reset state, which meets the invariant for every configuration. -/
theorem stepKeepsInvariant : Obligations.StepKeepsInvariant := by
  unfold Obligations.StepKeepsInvariant
  intro s t h hs
  cases hr : s.rst with
  | false => exact h.step_of_not_rst hr hs
  | true => exact h.step_of_rst hr hs

/-- Settles O38: the reset state has R7's values, and its block is the reset block. -/
theorem resetMeetsInvariant : Obligations.ResetMeetsInvariant := by
  unfold Obligations.ResetMeetsInvariant
  exact ⟨by decide, Block.reset_inv _, fun _ => rfl⟩

end Sys2Proof.Machine
end

section
/-! Which steps write PRESENCE, PCNT and PULLUP_EN (10_state.md R38, R41), and the reset values (R54). -/

namespace Sys2Proof.Machine

/-- What no tick writes, and what only the last tick of the presence window writes, which ends the command (R221). -/
theorem Block.tick_frame (cfg : Params) (e : Bool) (b : Block) :
    (b.tick cfg e).errBusy = b.errBusy ∧ (b.tick cfg e).errCmd = b.errCmd ∧ (b.tick cfg e).op = b.op
    ∧ (b.tick cfg e).pullupEn = b.pullupEn
    ∧ ((b.tick cfg e).presence = b.presence ∧ (b.tick cfg e).pcnt = b.pcnt
      ∨ b.ph = .rstSamp ∧ b.tmr = 1#10 ∧ (b.tick cfg e).ph = .idle) := by
  cases hp : b.ph with
  | idle => simp [Block.tick_idle hp]
  | rstLow => rw [Block.tick_rstLow hp]; split <;> simp
  | rstSamp =>
    rw [Block.tick_rstSamp hp]
    split
    · exact ⟨rfl, rfl, rfl, rfl, .inr ⟨rfl, ‹_›, rfl⟩⟩
    · exact ⟨rfl, rfl, rfl, rfl, .inl ⟨rfl, rfl⟩⟩
  | wrLow => rw [Block.tick_wrLow hp]; split <;> simp
  | wrHigh => rw [Block.tick_wrHigh hp]; split <;> simp [Block.finishSlot_frame]
  | rdLow => rw [Block.tick_rdLow hp]; split <;> simp
  | rdMeas =>
    cases e with
    | false => simp [Block.tick_rdMeas_low hp]
    | true => rw [Block.tick_rdMeas_high hp]; split <;> simp [Block.finishReadSlot_frame]
  | rdPad => rw [Block.tick_rdPad hp]; split <;> simp [Block.finishReadSlot_frame]

/-- Settles O24: of the events, only a tick and the rise of `rst` touch PRESENCE and PCNT, and of the ticks only the last
of the window. -/
theorem onlyResetCommandWritesPresence : Obligations.OnlyResetCommandWritesPresence := by
  unfold Obligations.OnlyResetCommandWritesPresence
  intro s t hs
  cases hr : s.rst with
  | true => exact .inr (.inl rfl)
  | false =>
    obtain ⟨hin, e, heq⟩ | ⟨-, heq⟩ | ⟨a, v, rest, -, hwrite⟩ | ⟨rest, hin, -⟩ | ⟨rest, -, heq⟩ := step_blk hr hs
    · rw [heq]
      obtain ⟨-, -, -, -, hkept | ⟨hph, htmr, hidle⟩⟩ := Block.tick_frame s.cfg e s.blk
      · exact .inl hkept
      · exact .inr (.inr (.inr ⟨hph, htmr, hidle, hin⟩))
    · exact .inl (by simp [heq])
    · left
      obtain ⟨-, -, heq⟩ | ⟨-, -, i, -, heq⟩ | ⟨-, -, -, -, heq⟩ | ⟨-, -, heq⟩ | ⟨-, heq⟩ | ⟨-, -, heq⟩
        | ⟨-, heq⟩ := hwrite <;> simp [heq, acceptEffect_frame]
    · exact .inr (.inr (.inl ⟨rest, hin⟩))
    · exact .inl (by simp [heq])

/-- Settles O25: of the rows of the write table only CONFIG's touches PULLUP_EN, and of the other events only the rise
of `rst`. -/
theorem onlyConfigWritesPullup : Obligations.OnlyConfigWritesPullup := by
  unfold Obligations.OnlyConfigWritesPullup
  intro s t hs
  refine ⟨rfl, ?_⟩
  cases hr : s.rst with
  | true => exact .inr (.inl rfl)
  | false =>
    obtain ⟨-, e, heq⟩ | ⟨-, heq⟩ | ⟨a, v, rest, hin, hwrite⟩ | ⟨rest, hin, -⟩ | ⟨rest, -, heq⟩ := step_blk hr hs
    · obtain ⟨-, -, -, hkept, -⟩ := Block.tick_frame s.cfg e s.blk
      exact .inl (by rw [heq, hkept])
    · exact .inl (by rw [heq])
    · obtain ⟨-, -, heq⟩ | ⟨-, -, i, -, heq⟩ | ⟨-, -, -, -, heq⟩ | ⟨-, -, heq⟩ | ⟨-, heq⟩ | ⟨rfl, hidle, heq⟩
        | ⟨-, heq⟩ := hwrite
      · exact .inl (by simp [heq])
      · exact .inl (by simp [heq, acceptEffect_frame])
      · exact .inl (by simp [heq])
      · exact .inl (by simp [heq])
      · exact .inl (by simp [heq])
      · exact .inr (.inr (.inr ⟨hidle, v, rest, hin, by rw [heq]⟩))
      · exact .inl (by rw [heq])
    · exact .inr (.inr (.inl ⟨rest, hin⟩))
    · exact .inl (by rw [heq])

/-- Every register of the reset block reads 0x00, DATA too because the block is not busy (R54, R72). -/
theorem Block.reset_readReg (free : Byte) (a : Addr) : Block.reset.readReg free a = 0x00#8 := by
  unfold Block.readReg
  split <;> rfl

/-- Settles O18. -/
theorem resetValues : Obligations.ResetValues := by
  unfold Obligations.ResetValues
  exact ⟨rfl, rfl, rfl, rfl, rfl, Block.reset_readReg⟩

end Sys2Proof.Machine
end

section
/-! A read slot from its first tick to its last (41_bit_io.md R175 to R181), and RDUR over the slots of a READ_BYTE. -/

namespace Sys2Proof.Machine

/-! ### Saturation of the measurement -/

/-- Saturating at D_MAX moves no duration across T_RTH (R178). -/
theorem classify_min_durMax {cfg : Params} (hc : cfg.ok = true) (d : Nat) :
    classify cfg (min d 255) = classify cfg d := by
  obtain ⟨-, -, -, -, hth, -⟩ := (Params.ok_iff cfg).1 hc
  simp only [classify, decide_eq_decide]
  omega

theorem readPad_min_durMax {cfg : Params} (hc : cfg.ok = true) (x : Bool) (d : Nat) :
    readPad cfg x (min d 255) = readPad cfg x d := by
  obtain ⟨-, -, -, -, -, h0, h1⟩ := (Params.ok_iff cfg).1 hc
  simp only [readPad, satSub_eq]
  split <;> omega

/-- `dur` after `d` low ticks from 0. -/
def measured (d : Nat) : Duration :=
  BitVec.ofNat 8 (min d 255)

theorem measured_toNat (d : Nat) : (measured d).toNat = min d 255 := by
  rw [measured, BitVec.toNat_ofNat, Nat.mod_eq_of_lt (by omega)]

theorem satInc8_measured (d : Nat) : satInc8 (measured d) = measured (d + 1) := by
  apply BitVec.eq_of_toNat_eq
  rw [satInc8_toNat, measured_toNat, measured_toNat]
  omega

/-! ### One read slot -/

section
variable {cfg : Params} {b : Block}

theorem Block.ticks_rdMeas_low (n d : Nat) (hp : b.ph = .rdMeas) (hd : b.dur = measured n) :
    b.ticks cfg (List.replicate d false) = { b with dur := measured (n + d) } := by
  induction d generalizing b n with
  | zero => simp [← hd]
  | succ d ih =>
    rw [List.replicate_succ, Block.ticks_cons, Block.tick_rdMeas_low hp, hd, satInc8_measured,
      ih (b := { b with dur := measured (n + 1) }) (n + 1) hp rfl, Nat.add_right_comm, Nat.add_assoc]

/-- The block when the measurement of `d` low ticks ends: its bit is stored, and RDUR if R176 writes it. -/
def Block.afterMeasurement (cfg : Params) (d : Nat) (b : Block) : Block :=
  Block.storeMeasured cfg { b with ph := .rdMeas, tmr := 1#10, dur := measured d }

/-- From the first tick of RD_LOW to the end of the measurement. -/
theorem Block.ticks_rdLow_rdMeas {pre : List Bool} (d : Nat) (hp : b.ph = .rdLow) (h1 : 1 ≤ b.tmr.toNat)
    (hpre : pre.length = b.tmr.toNat) :
    b.ticks cfg (pre ++ List.replicate d false) = { b with ph := .rdMeas, tmr := 1#10, dur := measured d } := by
  obtain ⟨e, hlast⟩ := Block.ticks_lastTick cfg pre (by simp [hp, Phase.countsDown]) h1 hpre
  rw [Block.ticks_append, hlast, Block.tick_rdLow (b := { b with tmr := 1#10 }) hp, if_pos rfl,
    Block.ticks_rdMeas_low 0 d rfl rfl, Nat.zero_add]

/-- The pad from its entry to the end of the slot: its ticks take `tmr` to 1, and the last ends the slot. -/
theorem Block.ticks_rdPad {post : List Bool} (hp : b.ph = .rdPad) (h1 : 1 ≤ b.tmr.toNat)
    (hpost : post.length = b.tmr.toNat) :
    b.ticks cfg post = Block.finishReadSlot cfg { b with tmr := 1#10 } := by
  obtain ⟨e, hlast⟩ := Block.ticks_lastTick cfg post (by simp [hp, Phase.countsDown]) h1 hpost
  rw [hlast, Block.tick_rdPad (b := { b with tmr := 1#10 }) hp, if_pos rfl]

/-- The tick that ends a measurement, and the pad after it. -/
theorem Block.ticks_measured_pad {post : List Bool} {d : Nat} (hc : cfg.ok = true)
    (hpost : post.length = readPad cfg (classify cfg d) d) :
    ∃ p, Block.ticks cfg (true :: post) { b with ph := .rdMeas, tmr := 1#10, dur := measured d }
      = Block.finishReadSlot cfg { b.afterMeasurement cfg d with ph := p } := by
  have hpad : readPad cfg (classify cfg (measured d).toNat) (measured d).toNat = post.length := by
    rw [measured_toNat, classify_min_durMax hc, readPad_min_durMax hc, hpost]
  have hfit : post.length ≤ 1023 := by have := readPad_le hc (classify cfg d) d; omega
  rw [Block.ticks_cons, Block.tick_rdMeas_high rfl]
  simp only [hpad]
  split
  case isTrue hnil =>
    rw [List.eq_nil_of_length_eq_zero hnil]
    exact ⟨.rdMeas, rfl⟩
  case isFalse hne =>
    have htmr : (BitVec.ofNat 10 post.length).toNat = post.length := timer_toNat hfit
    exact ⟨.rdPad, Block.ticks_rdPad rfl (by rw [Block.enter_tmr, htmr]; omega) htmr.symm⟩

/-- A whole read slot, under either time of log 22: it stores the measurement and is finished as R146 says. -/
theorem Block.ticks_readSlot {d : Nat} {envs : List Bool} (hc : cfg.ok = true) (hp : b.ph = .rdLow)
    (ht : b.tmr = BitVec.ofNat 10 cfg.tRdl) (hslot : IsReadSlot cfg d envs) :
    ∃ p, b.ticks cfg envs = Block.finishReadSlot cfg { b.afterMeasurement cfg d with ph := p } := by
  obtain ⟨⟨-, -, -, -, h1, -⟩, -, ⟨-, -, -, -, -, -, -, hfit⟩, -⟩ := (Params.ok_iff cfg).1 hc
  obtain ⟨pre, post, hpre, hpost, rfl⟩ := hslot
  have htmr : b.tmr.toNat = cfg.tRdl := by rw [ht, timer_toNat hfit]
  rw [Block.ticks_append, Block.ticks_rdLow_rdMeas d hp (by omega) (by omega)]
  exact Block.ticks_measured_pad hc hpost

end

/-! ### The slots of a READ_BYTE -/

/-- The block at the first tick of slot `i` of a READ_BYTE. -/
structure Block.AtReadByteSlot (cfg : Params) (i : Nat) (b : Block) : Prop where
  phase : b.ph = .rdLow
  timer : b.tmr = BitVec.ofNat 10 cfg.tRdl
  command : b.op = Instr.readByte.opcode
  index : b.idx.toNat = i

theorem acceptEffect_readByte_atSlot (cfg : Params) (b : Block) :
    (acceptEffect .readByte cfg b).AtReadByteSlot cfg 0 :=
  ⟨rfl, rfl, rfl, rfl⟩

section
variable {cfg : Params} {b : Block} {i d : Nat} {envs : List Bool}

/-- The framer starts the next slot of a READ_BYTE (R146). -/
theorem Block.finishSlot_readByte_next (hop : b.op = Instr.readByte.opcode) (hi : b.idx.toNat < 7) :
    (b.finishSlot cfg).AtReadByteSlot cfg (b.idx.toNat + 1) := by
  have hmore : b.finishSlot cfg = Block.startSlot cfg { b with idx := b.idx + 1#3 } := by
    simp [Block.finishSlot, Block.opIsByte, hop, hi]
  have hreads : Block.opWrites { b with idx := b.idx + 1#3 } = false := by
    rw [Block.opWrites, hop]; decide
  rw [hmore, Block.startSlot_of_reads cfg hreads]
  exact ⟨rfl, rfl, hop, by simp only [Block.enter_idx]; bv_omega⟩

theorem Block.finishSlot_readByte_busy (hop : b.op = Instr.readByte.opcode) :
    (b.finishSlot cfg).busy = decide (b.idx.toNat < 7) := by
  by_cases hi : b.idx.toNat < 7
  · simp [Block.busy, (Block.finishSlot_readByte_next (cfg := cfg) hop hi).phase, hi]
  · simp [Block.busy, Block.finishSlot, hi]

/-- A slot of a READ_BYTE, with RDUR written by R176's arm, comes down to `finish_slot` on a block whose RDUR holds the
slot's duration. -/
theorem Block.AtReadByteSlot.ticks_eq_finishSlot (h : b.AtReadByteSlot cfg i) (hc : cfg.ok = true)
    (hr : cfg.rdurTime = .atMeasurement) (hslot : IsReadSlot cfg d envs) :
    ∃ b' : Block, b.ticks cfg envs = b'.finishSlot cfg ∧ b'.op = Instr.readByte.opcode ∧ b'.idx.toNat = i
      ∧ b'.rdur = measured d := by
  obtain ⟨p, heq⟩ := Block.ticks_readSlot hc h.phase h.timer hslot
  rw [Block.finishReadSlot_of_atMeasurement hr] at heq
  exact ⟨_, heq, h.command, h.index, if_pos hr⟩

/-- After slots in a row from slot `i` on, the last of them `q`, RDUR holds its duration, and the command runs unless slot 7
is over (R202): by induction on the slots. -/
theorem Block.AtReadByteSlot.ticks_slots (hc : cfg.ok = true) (hr : cfg.rdurTime = .atMeasurement)
    {slots : List (Nat × List Bool)} {q : Nat × List Bool} (h : b.AtReadByteSlot cfg i)
    (hlen : i + slots.length ≤ 8) (hlast : slots.getLast? = some q) (hslots : ∀ p ∈ slots, IsReadSlot cfg p.1 p.2) :
    (b.ticks cfg (slots.flatMap Prod.snd)).rdur = measured q.1
    ∧ (b.ticks cfg (slots.flatMap Prod.snd)).busy = decide (i + slots.length < 8) := by
  induction slots generalizing b i with
  | nil => simp at hlast
  | cons p rest ih =>
    obtain ⟨hp, hrest⟩ := List.forall_mem_cons.1 hslots
    obtain ⟨b', heq, hop, hidx, hrdur⟩ := h.ticks_eq_finishSlot hc hr hp
    rw [List.flatMap_cons, Block.ticks_append, heq]
    rw [List.length_cons] at hlen
    cases rest with
    | nil =>
      obtain rfl : p = q := by simpa using hlast
      refine ⟨by simp [Block.finishSlot_frame, hrdur], ?_⟩
      rw [List.flatMap_nil, Block.ticks_nil, Block.finishSlot_readByte_busy hop, hidx, List.length_singleton]
      exact decide_eq_decide.2 (by omega)
    | cons p' rest' =>
      have hnext := Block.finishSlot_readByte_next (cfg := cfg) hop (by rw [List.length_cons] at hlen; omega)
      rw [hidx] at hnext
      rw [List.length_cons (a := p), ← Nat.add_assoc, Nat.add_right_comm]
      exact ih hnext (by omega) hlast hrest

end

theorem Block.readReg_rdur (b : Block) (free : Byte) : b.readReg free regRdur = b.rdur := rfl

/-- Settles O43: the slots run from slot 0, where acceptance leaves the block. -/
theorem rdurHoldsTheLastSlot : Obligations.RdurHoldsTheLastSlot := by
  unfold Obligations.RdurHoldsTheLastSlot
  intro s slots p hready hr hlen hlast hslots
  obtain ⟨hc, -, -⟩ := s.ready_iff.1 hready
  obtain ⟨hrdur, hbusy⟩ := (acceptEffect_readByte_atSlot s.cfg s.blk).ticks_slots hc hr (by omega) hlast hslots
  rw [Nat.zero_add] at hbusy
  exact ⟨_, exec_of_ready .readByte hready, fun free => ⟨(Block.readReg_rdur _ free).trans hrdur, hbusy⟩⟩

end Sys2Proof.Machine
end

section
/-! The register space (20_memory.md): where it lies on the bus (R81), what a host read gives (R72) and a host write
does (R73), and the refusal of other access widths (R71). -/

namespace Sys2Proof.Machine

/-! ### The bus -/

/-- Settles O4: the space is the eight addresses from BASE on, and the distance from BASE is the register's address. -/
theorem registersLieAtBase : Obligations.RegistersLieAtBase := by
  unfold Obligations.RegistersLieAtBase
  intro n a
  have ha : a.toNat < 8 := a.isLt
  unfold registerAt
  split
  case isTrue hin =>
    rw [Option.some.injEq]
    constructor
    · rintro rfl
      rw [BitVec.toNat_ofNat]
      omega
    · rintro rfl
      rw [Nat.add_sub_cancel_left, BitVec.ofNat_toNat, BitVec.setWidth_eq]
  case isFalse hout =>
    simp only [reduceCtorEq, false_iff]
    omega

/-! ### The width of an access -/

section
variable {s : State} {width : Nat}

theorem perform_read_of_bad_width (hw : width ≠ 8) (a : Addr) :
    perform (.read width a) s = .refused .accessWidth := by
  simp [perform, accessWidthOk, hw]

theorem perform_write_of_bad_width (hw : width ≠ 8) (a : Addr) (v : Byte) :
    perform (.write width a v) s = .refused .accessWidth := by
  simp [perform, accessWidthOk, hw]

end

/-- Settles O13. -/
theorem otherAccessWidthsAreRefused : Obligations.OtherAccessWidthsAreRefused := by
  unfold Obligations.OtherAccessWidthsAreRefused
  intro s width a v rest hc hw
  exact ⟨fun hi => (step_of_input hc hi).trans (perform_read_of_bad_width hw a),
    fun hi => (step_of_input hc hi).trans (perform_write_of_bad_width hw a v)⟩

/-! ### Host reads -/

section
variable (b : Block) (free : Byte)

theorem Block.readReg_cmd : b.readReg free regCmd = 0x00#8 := rfl

theorem Block.readReg_data_of_busy (hp : b.ph ≠ .idle) : b.readReg free regData = free :=
  if_pos (b.busy_eq_true_iff.2 hp)

theorem Block.readReg_data_of_idle (hp : b.ph = .idle) : b.readReg free regData = b.data :=
  if_neg (by simp [hp])

/-- STATUS is the sum of its flags at their places (R40). -/
theorem Block.status_toNat :
    b.status.toNat = 32 * b.errCmd.toNat + 16 * b.errBusy.toNat + 2 * b.presence.toNat + b.busy.toNat := by
  unfold Block.status
  cases b.errCmd <;> cases b.errBusy <;> cases b.presence <;> cases b.busy <;> rfl

theorem Block.readReg_status : b.readReg free regStatus = b.status := rfl

theorem zextBit_toNat (x : Bool) : (zextBit x).toNat = x.toNat := by
  cases x <;> rfl

theorem Block.readReg_config : b.readReg free regConfig = zextBit b.pullupEn := rfl

theorem Block.readReg_pcntLo_toNat : (b.readReg free regPcntLo).toNat = b.pcnt.toNat % 256 :=
  BitVec.extractLsb'_toNat 0 8 b.pcnt

/-- PCNT_HI is bit 8 of PCNT, which has no higher bit. -/
theorem Block.readReg_pcntHi_toNat : (b.readReg free regPcntHi).toNat = b.pcnt.toNat / 256 := by
  have hlt : b.pcnt.toNat < 512 := b.pcnt.isLt
  rw [show b.readReg free regPcntHi = zextBit (b.pcnt.getLsbD 8) from rfl, zextBit_toNat, BitVec.getLsbD,
    Nat.toNat_testBit]
  omega

theorem Block.readReg_reserved : b.readReg free regReserved = 0x00#8 := rfl

end

/-- Settles O11: a read changes no more than `hostRead_frame` says, and the value is the register's. -/
theorem hostReadTable : Obligations.HostReadTable := by
  unfold Obligations.HostReadTable
  intro s a rest hc hr hi
  obtain ⟨hblk, hcfg, hrst, hinputs, hrdata⟩ := hostRead_frame a (s.setInputs rest)
  rw [State.liveBlock_of_not_rst (s := s.setInputs rest) hr, State.setInputs_blk, State.setInputs_draws] at hrdata
  refine ⟨_, step_of_input hc hi, hblk, hcfg, hrst, hinputs, ?_⟩
  rw [hrdata]
  refine ⟨?cmd, ?dataBusy, ?dataIdle, ?status, ?config, ?pcntLo, ?pcntHi, ?rdur, ?reserved⟩ <;> rintro rfl
  case cmd => exact Block.readReg_cmd _ _
  case dataBusy => exact Block.readReg_data_of_busy _ _
  case dataIdle => exact Block.readReg_data_of_idle _ _
  case status => exact Block.status_toNat _
  case config => exact zextBit_toNat _
  case pcntLo => exact Block.readReg_pcntLo_toNat _ _
  case pcntHi => exact Block.readReg_pcntHi_toNat _ _
  case rdur => exact Block.readReg_rdur _ _
  case reserved => exact Block.readReg_reserved _ _

/-! ### Host writes -/

section
variable {a : Addr} {v : Byte} {s : State}

theorem hostWrite_cmd_of_command {i : Instr} (hd : decode v = .command i) : hostWrite regCmd v s = exec i s := by
  simp [hostWrite, writeCmd, hd]

theorem hostWrite_cmd_of_illegal {why : Illegal} (hd : decode v = .illegal why) :
    hostWrite regCmd v s = illegalCommand s := by
  simp [hostWrite, writeCmd, hd]

theorem hostWrite_data : hostWrite regData v s = guardedWrite (fun _ b => { b with data := v }) s := rfl

theorem hostWrite_config :
    hostWrite regConfig v s = guardedWrite (fun _ b => { b with pullupEn := v.getLsbD 0 }) s := rfl

theorem hostWrite_status_of_not_rst (hr : s.rst = false) :
    hostWrite regStatus v s = .next (s.setBlk (s.blk.clearErrors v)) := by
  simp [hostWrite, writeStatus, hr]

theorem hostWrite_of_four_le (ha : 4 ≤ a.toNat) : hostWrite a v s = .next s := by
  obtain ⟨rfl, -⟩ | ⟨rfl, -⟩ | ⟨rfl, -⟩ | ⟨rfl, -⟩ | ⟨-, h⟩ := hostWrite_cases a v s
  · exact absurd ha (by decide)
  · exact absurd ha (by decide)
  · exact absurd ha (by decide)
  · exact absurd ha (by decide)
  · exact h

/-- The three guarded registers while busy: ERR_BUSY and nothing else (R76, R272). -/
theorem hostWrite_of_busy (ha : a = regCmd ∨ a = regData ∨ a = regConfig) (hc : s.cfg.ok = true)
    (hr : s.rst = false) (hb : s.blk.busy = true) :
    hostWrite a v s = .next (s.setBlk (s.blk.raise .busy)) := by
  obtain rfl | rfl | rfl := ha
  · obtain ⟨i, -, hw⟩ | ⟨why, -, hw⟩ := writeCmd_cases v s <;> exact hw.trans (guardedWrite_of_busy hc hr hb)
  · exact hostWrite_data.trans (guardedWrite_of_busy hc hr hb)
  · exact hostWrite_config.trans (guardedWrite_of_busy hc hr hb)

theorem Block.clearErrors_eq_ite (b : Block) (v : Byte) :
    b.clearErrors v = { b with
      errBusy := if v.getLsbD 4 then false else b.errBusy
      errCmd := if v.getLsbD 5 then false else b.errCmd } := by
  unfold Block.clearErrors
  cases v.getLsbD 4 <;> cases v.getLsbD 5 <;> simp

/-- A step on a write takes the event off the list and does the write. -/
theorem step_of_write {rest : List Input} (hc : s.cfg.ok = true) (hi : s.inputs = .write 8 a v :: rest) :
    step s = hostWrite a v (s.setInputs rest) :=
  step_of_input hc hi

end

/-- Settles O12: row by row of R73's table. -/
theorem hostWriteTable : Obligations.HostWriteTable := by
  unfold Obligations.HostWriteTable
  intro s a v rest hc hr hi s'
  rw [step_of_write hc hi]
  have hidle : s.blk.ph = .idle → s'.blk.busy = false := s.blk.busy_eq_false_iff.2
  refine ⟨?command, ?illegal, ?data, ?status, ?config, ?busy, hostWrite_of_four_le⟩
  case command =>
    rintro rfl - i hd
    exact hostWrite_cmd_of_command hd
  case illegal =>
    rintro rfl hp why hd
    exact (hostWrite_cmd_of_illegal hd).trans (guardedWrite_of_idle hc hr (hidle hp))
  case data =>
    rintro rfl hp
    exact hostWrite_data.trans <| guardedWrite_of_idle hc hr (hidle hp)
  case status =>
    rintro rfl
    rw [← Block.clearErrors_eq_ite]
    exact hostWrite_status_of_not_rst hr
  case config =>
    rintro rfl hp
    exact hostWrite_config.trans <| guardedWrite_of_idle hc hr (hidle hp)
  case busy =>
    intro ha hp
    exact hostWrite_of_busy ha hc hr (s.blk.busy_eq_true_iff.2 hp)

/-! ### Commands -/

theorem decode_encode (i : Instr) : decode (encode i) = .command i := by
  have hbyte : Laws.CommandByte.Statement i := by
    cases i with
    | reset => exact Laws.CommandByte.reset
    | writeBit => exact Laws.CommandByte.writeBit
    | readBit => exact Laws.CommandByte.readBit
    | writeByte => exact Laws.CommandByte.writeByte
    | readByte => exact Laws.CommandByte.readByte
  obtain ⟨-, -, hdecode⟩ := hbyte
  exact hdecode

theorem step_of_command {s : State} {v : Byte} {i : Instr} {rest : List Input} (hc : s.cfg.ok = true)
    (hi : s.inputs = .write 8 regCmd v :: rest) (hd : decode v = .command i) :
    step s = exec i (s.setInputs rest) :=
  (step_of_write hc hi).trans (hostWrite_cmd_of_command hd)

/-- Settles O5: the second clause is the first, for the event that `withFetchWord` places. -/
theorem stepRunsTheDecodedCommand : Obligations.StepRunsTheDecodedCommand := by
  unfold Obligations.StepRunsTheDecodedCommand
  refine ⟨fun s v i rest hc hi hd => step_of_command hc hi hd, fun s i hc => ?_⟩
  have hd : decode (BitVec.ofNat 8 (encode i).toNat) = .command i := by
    rw [BitVec.ofNat_toNat, BitVec.setWidth_eq, decode_encode]
  exact step_of_command (s := s.withFetchWord 8 (encode i).toNat) hc rfl hd

/-- Settles O7: a command is a guarded write, and the guard turns it away before its meaning is looked at. -/
theorem commandIsTurnedAwayWhileBusyOrInReset : Obligations.CommandIsTurnedAwayWhileBusyOrInReset := by
  unfold Obligations.CommandIsTurnedAwayWhileBusyOrInReset
  intro s i hc
  rw [exec_eq_guardedWrite]
  exact ⟨guardedWrite_of_rst hc, guardedWrite_of_busy hc⟩

end Sys2Proof.Machine
end

section
/-! Noninterference of the host with a running command (20_memory.md R74, R76): the sequencer neither reads nor writes
the error flags, and while busy no access touches anything else. -/

namespace Sys2Proof.Machine

/-! ### The sequencer does not see the error flags -/

section
variable (cfg : Params) (b : Block)

@[simp] theorem Block.withoutErrors_ph : b.withoutErrors.ph = b.ph := rfl
@[simp] theorem Block.withoutErrors_busy : b.withoutErrors.busy = b.busy := rfl

theorem Block.startSlot_withoutErrors : (b.startSlot cfg).withoutErrors = b.withoutErrors.startSlot cfg := by
  unfold Block.startSlot
  rw [apply_ite Block.withoutErrors]
  rfl

theorem Block.finishSlot_withoutErrors : (b.finishSlot cfg).withoutErrors = b.withoutErrors.finishSlot cfg := by
  unfold Block.finishSlot
  rw [apply_ite Block.withoutErrors, Block.startSlot_withoutErrors]
  rfl

theorem Block.finishReadSlot_withoutErrors :
    (b.finishReadSlot cfg).withoutErrors = b.withoutErrors.finishReadSlot cfg := by
  unfold Block.finishReadSlot
  rw [← Block.finishSlot_withoutErrors]
  rfl

theorem Block.tick_withoutErrors (e : Bool) : (b.tick cfg e).withoutErrors = b.withoutErrors.tick cfg e := by
  have hph := b.withoutErrors_ph
  cases hp : b.ph <;> rw [hp] at hph
  case idle => rw [Block.tick_idle hp, Block.tick_idle hph]
  case rstLow =>
    rw [Block.tick_rstLow hp, Block.tick_rstLow hph, apply_ite Block.withoutErrors]; rfl
  case rstSamp =>
    rw [Block.tick_rstSamp hp, Block.tick_rstSamp hph, apply_ite Block.withoutErrors]; rfl
  case wrLow =>
    rw [Block.tick_wrLow hp, Block.tick_wrLow hph, apply_ite Block.withoutErrors]; rfl
  case wrHigh =>
    rw [Block.tick_wrHigh hp, Block.tick_wrHigh hph, apply_ite Block.withoutErrors,
      Block.finishSlot_withoutErrors]
    rfl
  case rdLow =>
    rw [Block.tick_rdLow hp, Block.tick_rdLow hph, apply_ite Block.withoutErrors]; rfl
  case rdMeas =>
    cases e with
    | false => rw [Block.tick_rdMeas_low hp, Block.tick_rdMeas_low hph]; rfl
    | true =>
      rw [Block.tick_rdMeas_high hp, Block.tick_rdMeas_high hph, apply_ite Block.withoutErrors,
        Block.finishReadSlot_withoutErrors]
      rfl
  case rdPad =>
    rw [Block.tick_rdPad hp, Block.tick_rdPad hph, apply_ite Block.withoutErrors,
      Block.finishReadSlot_withoutErrors]
    rfl

theorem Block.ticks_withoutErrors (es : List Bool) :
    (b.ticks cfg es).withoutErrors = b.withoutErrors.ticks cfg es := by
  induction es generalizing b with
  | nil => rfl
  | cons e es ih => rw [Block.ticks_cons, ih, Block.tick_withoutErrors, Block.ticks_cons]

end

/-- Blocks that agree but for the error flags go on to agree. -/
theorem Block.ticks_congr_withoutErrors {b b' : Block} (h : b.withoutErrors = b'.withoutErrors) (cfg : Params)
    (es : List Bool) : (b.ticks cfg es).withoutErrors = (b'.ticks cfg es).withoutErrors := by
  rw [Block.ticks_withoutErrors, h, Block.ticks_withoutErrors]

theorem Block.busy_congr_withoutErrors {b b' : Block} (h : b.withoutErrors = b'.withoutErrors) : b.busy = b'.busy := by
  rw [← b.withoutErrors_busy, h, b'.withoutErrors_busy]

/-! ### One access while busy -/

section
variable {s : State} {i : Input}

theorem Input.eq_of_ordinary (h : i.ordinary = true) :
    (∃ e, i = .tick e) ∨ (∃ a, i = .read 8 a) ∨ ∃ a v, i = .write 8 a v := by
  cases i with
  | tick e => exact .inl ⟨e, rfl⟩
  | read w a => exact .inr (.inl ⟨a, by rw [eq_of_beq h]⟩)
  | write w a v => exact .inr (.inr ⟨a, v, by rw [eq_of_beq h]⟩)
  | rst l => cases h

/-- While busy a write of any address touches the error flags at most. -/
theorem hostWrite_busy_flagsOnly (a : Addr) (v : Byte) (hc : s.cfg.ok = true) (hr : s.rst = false)
    (hb : s.blk.busy = true) :
    ∃ b : Block, hostWrite a v s = .next (s.setBlk b) ∧ b.withoutErrors = s.blk.withoutErrors := by
  have rejected (ha : a = regCmd ∨ a = regData ∨ a = regConfig) := hostWrite_of_busy (v := v) ha hc hr hb
  obtain ⟨rfl, -⟩ | ⟨rfl, -⟩ | ⟨rfl, -⟩ | ⟨rfl, -⟩ | ⟨-, hw⟩ := hostWrite_cases a v s
  · exact ⟨_, rejected (.inl rfl), rfl⟩
  · exact ⟨_, rejected (.inr (.inl rfl)), rfl⟩
  · exact ⟨_, hostWrite_status_of_not_rst hr, rfl⟩
  · exact ⟨_, rejected (.inr (.inr rfl)), rfl⟩
  · exact ⟨s.blk, hw, rfl⟩

/-- The step of an ordinary event on a busy block: but for the error flags, its tick if it is one, and nothing if it is
an access. -/
theorem step_ordinary_of_busy {rest : List Input} (hc : s.cfg.ok = true) (hr : s.rst = false)
    (hi : s.inputs = i :: rest) (hord : i.ordinary = true) (hb : s.blk.busy = true) :
    ∃ t : State, step s = .next t ∧ t.cfg = s.cfg ∧ t.rst = false ∧ t.inputs = rest
      ∧ t.blk.withoutErrors = (s.blk.ticks s.cfg (envLevels [i])).withoutErrors := by
  rw [step_of_input hc hi]
  obtain ⟨e, rfl⟩ | ⟨a, rfl⟩ | ⟨a, v, rfl⟩ := Input.eq_of_ordinary hord
  · have htick := tickEvent_of_not_rst (s := s.setInputs rest) e hr
    exact ⟨(s.setInputs rest).setBlk (s.blk.tick s.cfg e), congrArg Host.Outcome.next htick, rfl, hr, rfl, rfl⟩
  · obtain ⟨hblk, hcfg, hrst, hinputs, -⟩ := hostRead_frame a (s.setInputs rest)
    exact ⟨_, rfl, hcfg, hrst.trans hr, hinputs, congrArg Block.withoutErrors hblk⟩
  · obtain ⟨b, hw, hflags⟩ := hostWrite_busy_flagsOnly (s := s.setInputs rest) a v hc hr hb
    exact ⟨_, hw, rfl, hr, rfl, hflags⟩

end

/-! ### A run of accesses while busy -/

theorem envLevels_cons (i : Input) (l : List Input) : envLevels (i :: l) = envLevels [i] ++ envLevels l :=
  List.filterMap_append (l := [i]) (l' := l)

/-- The premise that the command runs, carried over one event: the ticks of the rest of the list start where the event
left the block. -/
theorem Block.busy_after_event {cfg : Params} {b b' : Block} {i : Input} {l : List Input}
    (hb : ∀ k, (b.ticks cfg ((envLevels (i :: l)).take k)).busy = true)
    (h : b'.withoutErrors = (b.ticks cfg (envLevels [i])).withoutErrors) (k : Nat) :
    (b'.ticks cfg ((envLevels l).take k)).busy = true := by
  rw [Block.busy_congr_withoutErrors (Block.ticks_congr_withoutErrors h cfg _), ← Block.ticks_append]
  simpa [envLevels_cons i l, List.take_length_add_append] using hb ((envLevels [i]).length + k)

/-- Settles O40, by induction on the events: each leaves what its own tick would, but for the error flags, and those the
ticks to come do not see. -/
theorem hostCannotDisturbACommand : Obligations.HostCannotDisturbACommand := by
  unfold Obligations.HostCannotDisturbACommand
  intro s l rest hc hr hi hord hb
  induction l generalizing s with
  | nil => exact ⟨s, rfl, hi, rfl⟩
  | cons i l ih =>
    obtain ⟨hordi, hordl⟩ := List.forall_mem_cons.1 hord
    obtain ⟨t, hstep, hcfg, hrst, hin, hflags⟩ := step_ordinary_of_busy hc hr hi hordi (hb 0)
    obtain ⟨u, hrun, hinputs, hblk⟩ :=
      ih t (hcfg ▸ hc) hrst hin hordl (hcfg ▸ Block.busy_after_event hb hflags)
    refine ⟨u, (run_succ l.length hstep).trans hrun, hinputs, hblk.trans ?_⟩
    rw [hcfg, envLevels_cons, Block.ticks_append]
    exact Block.ticks_congr_withoutErrors hflags s.cfg _

end Sys2Proof.Machine
end

section
/-! The CMD8 format (30_encoding.md R100, R101, R105): the decoder is the inverse of the encoder. -/

namespace Sys2Proof.Machine

/-- A CMD byte is its two fields (R100). -/
theorem zField_append_opcField (v : Byte) : zField v ++ opcField v = v := by
  calc zField v ++ opcField v
      _ = v.extractLsb' 0 8 := BitVec.extractLsb'_append_extractLsb'_eq_extractLsb' rfl
      _ = v := BitVec.extractLsb'_eq_self

/-- Z = 0 and OPC are all that the decoder looks at, and each OPC has one command (R101, R105). -/
theorem fields_of_decode {v : Byte} {i : Instr} (h : decode v = .command i) :
    zField v = 0#5 ∧ opcField v = i.opcode := by
  unfold decode at h
  split at h
  case isTrue => cases h
  case isFalse hz =>
    refine ⟨by simpa using hz, BitVec.eq_of_toNat_eq ?_⟩
    split at h <;> cases h <;> assumption

theorem eq_encode_of_decode {v : Byte} {i : Instr} (h : decode v = .command i) : v = encode i := by
  obtain ⟨hz, hopc⟩ := fields_of_decode h
  rw [← zField_append_opcField v, hz, hopc, encode]

theorem decode_eq_command_iff {v : Byte} {i : Instr} : decode v = .command i ↔ v = encode i :=
  ⟨eq_encode_of_decode, fun h => h ▸ decode_encode i⟩

theorem decode_illegal_iff {v : Byte} : (∃ why, decode v = .illegal why) ↔ ∀ i, v ≠ encode i := by
  simp only [ne_eq, ← decode_eq_command_iff]
  cases decode v <;> simp

theorem decodeTableWord_encode (i : Instr) : decodeTableWord 8 (encode i).toNat = some i := by
  simp [decodeTableWord, decode_encode]

/-- Settles O2. -/
theorem decodeAndEncodeAgree : Obligations.DecodeAndEncodeAgree := by
  unfold Obligations.DecodeAndEncodeAgree
  exact fun i => ⟨by cases i <;> rfl, decode_encode i, decodeTableWord_encode i, fun _ => eq_encode_of_decode⟩

/-- Settles O1: the five words are the encodings of the five commands. -/
theorem decoderReadsTheFiveWords : Obligations.DecoderReadsTheFiveWords := by
  unfold Obligations.DecoderReadsTheFiveWords
  refine ⟨fun _ => decode_eq_command_iff, fun _ => decode_eq_command_iff, fun _ => decode_eq_command_iff,
    fun _ => decode_eq_command_iff, fun _ => decode_eq_command_iff, fun _ => decode_illegal_iff.trans ?_⟩
  constructor
  · exact fun h => ⟨h .reset, h .writeBit, h .readBit, h .writeByte, h .readByte⟩
  · rintro ⟨hreset, hwriteBit, hreadBit, hwriteByte, hreadByte⟩ i
    cases i with
    | reset => exact hreset
    | writeBit => exact hwriteBit
    | readBit => exact hreadBit
    | writeByte => exact hwriteByte
    | readByte => exact hreadByte

end Sys2Proof.Machine
end

section
/-! Host programs (30_encoding.md R111, R112): runs of events that set no error flag, and why the accesses of a
pseudo-instruction make such a run. -/

namespace Sys2Proof.Machine

/-! ### Runs that set no error flag -/

/-- The events of `l` come first in `s`, they all happen on the way to `t`, and they set no error flag and leave the
level of `rst` alone. -/
structure Unrejected (l : List Input) (s t : State) : Prop where
  run : Host.Core.run Sys2Proof.core l.length s = .next t
  inputs : s.inputs = l ++ t.inputs
  cfg : t.cfg = s.cfg
  rst : t.rst = s.rst
  errBusy : t.blk.errBusy = true → s.blk.errBusy = true
  errCmd : t.blk.errCmd = true → s.blk.errCmd = true

section
variable {l l' : List Input} {i : Input} {rest : List Input} {s t u : State}

theorem Unrejected.nil (s : State) : Unrejected [] s s :=
  ⟨run_zero s, rfl, rfl, rfl, id, id⟩

theorem Unrejected.append (h : Unrejected l s t) (h' : Unrejected l' t u) : Unrejected (l ++ l') s u where
  run := by rw [List.length_append, run_append _ _ h.run, h'.run]
  inputs := by rw [h.inputs, h'.inputs, List.append_assoc]
  cfg := h'.cfg.trans h.cfg
  rst := h'.rst.trans h.rst
  errBusy := h.errBusy ∘ h'.errBusy
  errCmd := h.errCmd ∘ h'.errCmd

theorem Unrejected.inputs_eq (h : Unrejected l s t) (hi : s.inputs = l ++ rest) : t.inputs = rest :=
  List.append_cancel_left (h.inputs.symm.trans hi)

theorem Unrejected.ready (h : Unrejected l s t) (hs : s.ready = true) (hp : t.blk.ph = .idle) : t.ready = true := by
  obtain ⟨hc, hr, -⟩ := s.ready_iff.1 hs
  exact t.ready_iff.2 ⟨h.cfg ▸ hc, h.rst.trans hr, hp⟩

theorem Unrejected.of_step (hs : step s = .next t) (hi : s.inputs = i :: t.inputs) (hr : t.rst = s.rst)
    (hbusy : t.blk.errBusy = true → s.blk.errBusy = true) (hcmd : t.blk.errCmd = true → s.blk.errCmd = true) :
    Unrejected [i] s t :=
  ⟨(run_succ 0 hs).trans (run_zero t), hi, step_cfg hs, hr, hbusy, hcmd⟩

/-! ### Ticks and reads -/

/-- A tick or a host read: no event that could be rejected. -/
def Input.quiet : Input → Bool
  | .tick _ => true
  | .read width _ => accessWidthOk width
  | .write _ _ _ => false
  | .rst _ => false

/-- A tick or a read sets no error flag, and it starts no command. -/
theorem unrejected_of_quiet (hc : s.cfg.ok = true) (hr : s.rst = false) (hi : s.inputs = i :: rest)
    (hq : i.quiet = true) : ∃ t, Unrejected [i] s t ∧ (s.blk.ph = .idle → t.blk.ph = .idle) := by
  have hstep := step_of_input hc hi
  cases i with
  | tick e =>
    have htick : step s = .next ((s.setInputs rest).setBlk (s.blk.tick s.cfg e)) :=
      hstep.trans (congrArg _ (tickEvent_of_not_rst (s := s.setInputs rest) e hr))
    obtain ⟨hbusy, hcmd, -⟩ := Block.tick_frame s.cfg e s.blk
    exact ⟨_, .of_step htick hi rfl hbusy.symm.trans hcmd.symm.trans,
      fun hp => (congrArg Block.ph (Block.tick_idle hp)).trans hp⟩
  | read width a =>
    obtain rfl : width = 8 := eq_of_beq hq
    obtain ⟨hblk, -, hrst, hinputs, -⟩ := hostRead_frame a (s.setInputs rest)
    have hkept : (hostRead a (s.setInputs rest)).blk = s.blk := hblk
    exact ⟨_, .of_step hstep (hi.trans (congrArg _ hinputs.symm)) hrst (by rw [hkept]; exact id)
      (by rw [hkept]; exact id), fun hp => hkept ▸ hp⟩
  | write width a v => cases hq
  | rst level => cases hq

theorem unrejected_of_all_quiet (hc : s.cfg.ok = true) (hr : s.rst = false) (hi : s.inputs = l ++ rest)
    (hq : ∀ i ∈ l, i.quiet = true) : ∃ t, Unrejected l s t ∧ (s.blk.ph = .idle → t.blk.ph = .idle) := by
  induction l generalizing s with
  | nil => exact ⟨s, .nil s, id⟩
  | cons i l ih =>
    obtain ⟨hqi, hql⟩ := List.forall_mem_cons.1 hq
    obtain ⟨t, hfirst, hidle⟩ := unrejected_of_quiet hc hr hi hqi
    obtain ⟨u, hrest, hidle'⟩ := ih (hfirst.cfg ▸ hc) (hfirst.rst.trans hr) (hfirst.inputs_eq hi) hql
    exact ⟨u, hfirst.append hrest, hidle' ∘ hidle⟩

theorem tickInputs_quiet (envs : List Bool) : ∀ i ∈ tickInputs envs, i.quiet = true := by
  rintro _ hi
  obtain ⟨e, -, rfl⟩ := List.mem_map.1 hi
  rfl

/-- Ticks leave a ready state ready. -/
theorem unrejected_ticks (envs : List Bool) (hs : s.ready = true) (hi : s.inputs = tickInputs envs ++ rest) :
    ∃ t, Unrejected (tickInputs envs) s t ∧ t.ready = true := by
  obtain ⟨hc, hr, hp⟩ := s.ready_iff.1 hs
  obtain ⟨t, hticks, hidle⟩ := unrejected_of_all_quiet hc hr hi (tickInputs_quiet envs)
  exact ⟨t, hticks, hticks.ready hs (hidle hp)⟩

end

/-! ### Writes to a ready block -/

section
variable {a : Addr} {v : Byte} {b : Block} {rest : List Input} {s : State}

theorem unrejected_of_hostWrite (hs : s.ready = true) (hi : s.inputs = .write 8 a v :: rest)
    (hw : hostWrite a v (s.setInputs rest) = .next ((s.setInputs rest).setBlk b))
    (hbusy : b.errBusy = true → s.blk.errBusy = true) (hcmd : b.errCmd = true → s.blk.errCmd = true) :
    Unrejected [.write 8 a v] s ((s.setInputs rest).setBlk b) := by
  obtain ⟨hc, -, -⟩ := s.ready_iff.1 hs
  exact .of_step ((step_of_write hc hi).trans hw) hi rfl hbusy hcmd

/-- A write of a register other than CMD is accepted, and no command starts. -/
theorem hostWrite_of_ready (ha : a ≠ regCmd) (hs : s.ready = true) :
    ∃ b : Block, hostWrite a v s = .next (s.setBlk b) ∧ b.ph = .idle
      ∧ (b.errBusy = true → s.blk.errBusy = true) ∧ (b.errCmd = true → s.blk.errCmd = true) := by
  obtain ⟨hc, hr, hp⟩ := s.ready_iff.1 hs
  have hb : s.blk.busy = false := s.blk.busy_eq_false_iff.2 hp
  obtain ⟨rfl, -⟩ | ⟨rfl, -⟩ | ⟨rfl, -⟩ | ⟨rfl, -⟩ | ⟨-, hw⟩ := hostWrite_cases a v s
  · exact absurd rfl ha
  · exact ⟨_, hostWrite_data.trans (guardedWrite_of_idle hc hr hb), hp, id, id⟩
  · exact ⟨_, hostWrite_status_of_not_rst hr, hp, Bool.and_elim_left, Bool.and_elim_left⟩
  · exact ⟨_, hostWrite_config.trans (guardedWrite_of_idle hc hr hb), hp, id, id⟩
  · exact ⟨s.blk, hw, hp, id, id⟩

theorem unrejected_write (ha : a ≠ regCmd) (hs : s.ready = true) (hi : s.inputs = .write 8 a v :: rest) :
    ∃ t, Unrejected [.write 8 a v] s t ∧ t.ready = true := by
  obtain ⟨b, hw, hp, hbusy, hcmd⟩ := hostWrite_of_ready (s := s.setInputs rest) (v := v) ha hs
  have hwrite := unrejected_of_hostWrite hs hi hw hbusy hcmd
  exact ⟨_, hwrite, hwrite.ready hs hp⟩

theorem unrejected_command (i : Instr) (hs : s.ready = true) (hi : s.inputs = .write 8 regCmd (encode i) :: rest) :
    ∃ t, Unrejected [.write 8 regCmd (encode i)] s t := by
  obtain ⟨hbusy, hcmd, -⟩ := acceptEffect_frame i s.cfg s.blk
  have hw := (hostWrite_cmd_of_command (decode_encode i)).trans (exec_of_ready (s := s.setInputs rest) i hs)
  exact ⟨_, unrejected_of_hostWrite hs hi hw hbusy.symm.trans hcmd.symm.trans⟩

end

/-! ### Host programs that are not rejected -/

/-- An operation that writes nothing. -/
def HostOp.observes : HostOp → Bool
  | .wr _ _ => false
  | .rd _ => true
  | .wait => true

/-- The shape of R112's expansions: writes to an idle block, the last of which may be a command, after which nothing
is written any more. -/
inductive AcceptedOps : List HostOp → Prop where
  | observe {ops : List HostOp} (h : ∀ op ∈ ops, op.observes = true) : AcceptedOps ops
  | write {a : Addr} (v : Byte) {ops : List HostOp} (ha : a ≠ regCmd) (h : AcceptedOps ops) :
      AcceptedOps (.wr a v :: ops)
  | command (i : Instr) {ops : List HostOp} (h : ∀ op ∈ ops, op.observes = true) :
      AcceptedOps (.wr regCmd (encode i) :: ops)

theorem Pseudo.expand_accepted (p : Pseudo) : AcceptedOps p.expand := by
  have done : AcceptedOps [] := .observe (by decide)
  cases p with
  | pullup e => exact .write _ (by decide) done
  | reset => exact .command .reset (by decide)
  | wrBit b => exact .write _ (by decide) (.command .writeBit (by decide))
  | rdBit => exact .command .readBit (by decide)
  | wrByte v => exact .write v (by decide) (.command .writeByte (by decide))
  | rdByte => exact .command .readByte (by decide)
  | clrErr => exact .write _ (by decide) done

theorem HostOp.inputs_quiet {op : HostOp} (h : op.observes = true) (gaps : List (List Bool)) :
    ∀ i ∈ op.inputs gaps, i.quiet = true := by
  have access (envs : List Bool) (a : Addr) : ∀ i ∈ tickInputs envs ++ [.read 8 a], i.quiet = true :=
    List.forall_mem_append.2 ⟨tickInputs_quiet envs, by simp [Input.quiet, accessWidthOk]⟩
  cases op with
  | wr a v => cases h
  | rd a => exact access gaps.flatten a
  | wait =>
    intro i hi
    obtain ⟨envs, -, hi'⟩ := List.mem_flatMap.1 hi
    exact access envs regStatus i hi'

theorem hostInputs_quiet {ops : List HostOp} (h : ∀ op ∈ ops, op.observes = true) (gaps : List (List (List Bool))) :
    ∀ i ∈ hostInputs ops gaps, i.quiet = true := by
  induction ops generalizing gaps with
  | nil => exact fun _ hi => absurd hi List.not_mem_nil
  | cons op ops ih =>
    obtain ⟨hop, hops⟩ := List.forall_mem_cons.1 h
    exact List.forall_mem_append.2 ⟨HostOp.inputs_quiet hop _, ih hops _⟩

theorem unrejected_of_observes {ops : List HostOp} (h : ∀ op ∈ ops, op.observes = true)
    (gaps : List (List (List Bool))) {s : State} {rest : List Input} (hc : s.cfg.ok = true) (hr : s.rst = false)
    (hi : s.inputs = hostInputs ops gaps ++ rest) : ∃ t, Unrejected (hostInputs ops gaps) s t := by
  obtain ⟨t, hrun, -⟩ := unrejected_of_all_quiet hc hr hi (hostInputs_quiet h gaps)
  exact ⟨t, hrun⟩

/-- The writes find the block ready: neither the ticks before them nor the earlier ones started a command. -/
theorem AcceptedOps.unrejected {ops : List HostOp} (h : AcceptedOps ops) (gaps : List (List (List Bool)))
    {s : State} {rest : List Input} (hs : s.ready = true) (hi : s.inputs = hostInputs ops gaps ++ rest) :
    ∃ t, Unrejected (hostInputs ops gaps) s t := by
  induction h generalizing gaps s with
  | observe hops =>
    obtain ⟨hc, hr, -⟩ := s.ready_iff.1 hs
    exact unrejected_of_observes hops gaps hc hr hi
  | write v ha _ ih =>
    simp only [hostInputs, HostOp.inputs, List.append_assoc] at hi ⊢
    obtain ⟨t, hticks, ht⟩ := unrejected_ticks _ hs hi
    obtain ⟨u, hwrite, hu⟩ := unrejected_write ha ht (hticks.inputs_eq hi)
    obtain ⟨w, hrest⟩ := ih gaps.tail hu (hwrite.inputs_eq (hticks.inputs_eq hi))
    exact ⟨w, hticks.append (hwrite.append hrest)⟩
  | command i hops =>
    simp only [hostInputs, HostOp.inputs, List.append_assoc] at hi ⊢
    obtain ⟨t, hticks, ht⟩ := unrejected_ticks _ hs hi
    obtain ⟨hc, hr, -⟩ := t.ready_iff.1 ht
    obtain ⟨u, hcommand⟩ := unrejected_command i ht (hticks.inputs_eq hi)
    obtain ⟨w, hrest⟩ := unrejected_of_observes hops gaps.tail (hcommand.cfg ▸ hc) (hcommand.rst.trans hr)
      (hcommand.inputs_eq (hticks.inputs_eq hi))
    exact ⟨w, hticks.append (hcommand.append hrest)⟩

/-- Settles O17: the expansions of R112 have the shape whose writes all find the block ready. -/
theorem pseudoInstructionsAreNotRejected : Obligations.PseudoInstructionsAreNotRejected := by
  unfold Obligations.PseudoInstructionsAreNotRejected
  intro p gaps s rest hs hi
  obtain ⟨t, h⟩ := p.expand_accepted.unrejected gaps hs hi
  exact ⟨t, h.run, h.inputs_eq hi, h.errBusy, h.errCmd⟩

end Sys2Proof.Machine
end

section
/-! Tick events run by steps (40_sequencer.md R140, R143, R147), and the level of the line (R142, R152). -/

namespace Sys2Proof.Machine

/-! ### Ticks as events -/

section
variable {s : State} {e : Bool} {rest : List Input}

/-- A step whose event is a tick, outside reset, is the sequencer's tick on the block. -/
theorem step_of_tick (hc : s.cfg.ok = true) (hr : s.rst = false) (hi : s.inputs = .tick e :: rest) :
    step s = .next ((s.setInputs rest).setBlk (s.blk.tick s.cfg e)) :=
  (step_of_input hc hi).trans (congrArg _ (tickEvent_of_not_rst (s := s.setInputs rest) e hr))

/-- With no event listed a step is a tick at the level drawn from the environment. -/
theorem step_of_no_input (hc : s.cfg.ok = true) (hr : s.rst = false) (hi : s.inputs = []) :
    step s = .next (s.setBlk (s.blk.tick s.cfg (Config.envLevel s.draws))).nextDraw := by
  simp only [step, hc, nextEvent, hi, if_true, freeTick, tickEvent_of_not_rst _ hr]

end

theorem tickInputs_cons (e : Bool) (es : List Bool) : tickInputs (e :: es) = .tick e :: tickInputs es := rfl

/-- Settles O9, by induction on the ticks: each step takes one tick off the list. -/
theorem stepsRunTheTicks : Obligations.StepsRunTheTicks := by
  unfold Obligations.StepsRunTheTicks
  intro s envs rest hc hr hi
  induction envs generalizing s with
  | nil =>
    obtain rfl : s.inputs = rest := hi
    exact run_zero s
  | cons e es ih =>
    rw [List.length_cons, run_succ _ (step_of_tick hc hr hi)]
    exact ih _ hc hr rfl

/-- Settles O10: the level is the one drawn from the environment. -/
theorem emptyEventListIsATick : Obligations.EmptyEventListIsATick := by
  unfold Obligations.EmptyEventListIsATick
  intro s hc hr hi
  exact ⟨_, _, step_of_no_input hc hr hi, rfl, rfl, rfl, rfl, hi, rfl⟩

/-- Settles O22. -/
theorem idleTickChangesNothing : Obligations.IdleTickChangesNothing := by
  unfold Obligations.IdleTickChangesNothing
  intro s e rest hc hr hp hi
  rw [step_of_tick hc hr hi, Block.tick_idle hp]
  rfl

/-! ### The line -/

theorem Block.driveLow_eq_true_iff (b : Block) :
    b.driveLow = true ↔ b.ph = .rstLow ∨ b.ph = .wrLow ∨ b.ph = .rdLow := by
  cases hp : b.ph <;> simp [Block.driveLow, hp]

theorem Block.line_of_driven {b : Block} (h : b.driveLow = true) (env : Bool) : b.line env = false :=
  if_pos h

theorem Block.line_of_released {b : Block} (h : b.driveLow = false) (env : Bool) : b.line env = env :=
  if_neg (by simp [h])

/-- Settles O20. -/
theorem lineIsDrivenInThreePhases : Obligations.LineIsDrivenInThreePhases := by
  unfold Obligations.LineIsDrivenInThreePhases
  intro b env
  exact ⟨b.driveLow_eq_true_iff, fun h => b.line_of_driven h env, fun h => b.line_of_released h env⟩

/-- Settles O21: the arms of the other six phases do not take the line. -/
theorem lineIsUsedInTwoPhases : Obligations.LineIsUsedInTwoPhases := by
  unfold Obligations.LineIsUsedInTwoPhases
  intro cfg b e e' hsamp hmeas
  cases hp : b.ph with
  | rstSamp => exact absurd hp hsamp
  | rdMeas => exact absurd hp hmeas
  | idle => simp only [Block.tick_idle hp]
  | rstLow => simp only [Block.tick_rstLow hp]
  | wrLow => simp only [Block.tick_wrLow hp]
  | wrHigh => simp only [Block.tick_wrHigh hp]
  | rdLow => simp only [Block.tick_rdLow hp]
  | rdPad => simp only [Block.tick_rdPad hp]

end Sys2Proof.Machine
end

section
/-! The five commands at their CMD write (40_sequencer.md R144, R145): what acceptance writes, and the frame of the write
in every state. -/

namespace Sys2Proof.Machine

/-! ### Acceptance -/

section
variable (cfg : Params) (b : Block)

theorem acceptEffect_reset : acceptEffect .reset cfg b
    = { b with op := 0b001#3, idx := 0#3, ph := .rstLow, tmr := BitVec.ofNat 10 cfg.tRstl } := rfl

theorem acceptEffect_writeBit : acceptEffect .writeBit cfg b
    = { b with op := 0b010#3, idx := 0#3, ph := .wrLow,
               tmr := BitVec.ofNat 10 (if b.data.getLsbD 0 then cfg.tW1l else cfg.tW0l) } := rfl

theorem acceptEffect_readBit : acceptEffect .readBit cfg b
    = { b with op := 0b011#3, idx := 0#3, data := 0x00#8, ph := .rdLow, tmr := BitVec.ofNat 10 cfg.tRdl } := rfl

theorem acceptEffect_writeByte : acceptEffect .writeByte cfg b
    = { b with op := 0b100#3, idx := 0#3, ph := .wrLow,
               tmr := BitVec.ofNat 10 (if b.data.getLsbD 0 then cfg.tW1l else cfg.tW0l) } := rfl

theorem acceptEffect_readByte : acceptEffect .readByte cfg b
    = { b with op := 0b101#3, idx := 0#3, data := 0x00#8, ph := .rdLow, tmr := BitVec.ofNat 10 cfg.tRdl } := rfl

/-- An accepted command makes the block busy (R50). -/
theorem acceptEffect_busy (i : Instr) : (acceptEffect i cfg b).busy = true := by
  cases i <;> rfl

/-- Acceptance leaves the counters of the measurements to the phases that start them (R220, R175). -/
theorem acceptEffect_counters (i : Instr) :
    (acceptEffect i cfg b).cnt = b.cnt ∧ (acceptEffect i cfg b).dur = b.dur := by
  cases i <;> exact ⟨rfl, rfl⟩

/-- The commands that read nothing leave DATA alone. -/
theorem acceptEffect_data {i : Instr} (h : i = .reset ∨ i = .writeBit ∨ i = .writeByte) :
    (acceptEffect i cfg b).data = b.data := by
  obtain rfl | rfl | rfl := h <;> rfl

end

/-- Settles O6: on a ready state `exec` is the acceptance of the command. -/
theorem acceptedCommandStartsItsFirstPhase : Obligations.AcceptedCommandStartsItsFirstPhase := by
  unfold Obligations.AcceptedCommandStartsItsFirstPhase
  intro s hs
  refine ⟨?_, ?_, ?_, ?_, ?_, fun i t ht => ?_⟩
  · rw [exec_of_ready .reset hs, acceptEffect_reset]
  · rw [exec_of_ready .writeBit hs, acceptEffect_writeBit]
  · rw [exec_of_ready .readBit hs, acceptEffect_readBit]
  · rw [exec_of_ready .writeByte hs, acceptEffect_writeByte]
  · rw [exec_of_ready .readByte hs, acceptEffect_readByte]
  · rw [exec_of_ready i hs] at ht
    cases ht
    exact acceptEffect_busy s.cfg s.blk i

/-! ### The frame of the CMD write -/

/-- What a command's CMD write can do: it replaces the block alone, and only on a ready state by more than ERR_BUSY. -/
theorem exec_cases {i : Instr} {s t : State} (h : exec i s = .next t) :
    ∃ b, t = s.setBlk b
      ∧ (b = s.blk ∨ b = s.blk.raise .busy ∨ s.ready = true ∧ b = acceptEffect i s.cfg s.blk) := by
  rw [exec_eq_guardedWrite] at h
  obtain ⟨hc, ⟨-, rfl⟩ | ⟨-, -, rfl⟩ | ⟨hr, hb, rfl⟩⟩ := guardedWrite_cases h
  · exact ⟨t.blk, rfl, .inl rfl⟩
  · exact ⟨_, rfl, .inr (.inl rfl)⟩
  · exact ⟨_, rfl, .inr (.inr ⟨s.ready_iff.2 ⟨hc, hr, s.blk.busy_eq_false_iff.1 hb⟩, rfl⟩)⟩

/-- STATUS bit by bit (R40). -/
theorem Block.status_getLsbD (b : Block) (n : Nat) :
    b.status.getLsbD n
      = if n = 0 then b.busy else if n = 1 then b.presence else if n = 4 then b.errBusy
        else if n = 5 then b.errCmd else false := by
  by_cases h8 : n < 8
  · unfold Block.status
    generalize b.errCmd = cmd, b.errBusy = rejected, b.presence = presence, b.busy = busy
    decide +revert
  · rw [BitVec.getLsbD_of_ge _ _ (by omega)]
    simp [show n ≠ 0 by omega, show n ≠ 1 by omega, show n ≠ 4 by omega, show n ≠ 5 by omega]

/-- The registers but DATA and STATUS show PULLUP_EN, PCNT and RDUR and nothing else (R72). -/
theorem Block.readReg_congr {b b' : Block} (hpullup : b.pullupEn = b'.pullupEn) (hpcnt : b.pcnt = b'.pcnt)
    (hrdur : b.rdur = b'.rdur) (free : Byte) {a : Addr} (hdata : a ≠ regData) (hstatus : a ≠ regStatus) :
    b.readReg free a = b'.readReg free a := by
  have h1 : a.toNat ≠ 1 := fun h => hdata (BitVec.eq_of_toNat_eq h)
  have h2 : a.toNat ≠ 2 := fun h => hstatus (BitVec.eq_of_toNat_eq h)
  unfold Block.readReg
  rw [hpullup, hpcnt, hrdur]
  split
  case h_2 h => exact absurd h h1
  case h_3 h => exact absurd h h2
  all_goals rfl

/-- Settles O8: a CMD write leaves the block, raises ERR_BUSY or accepts the command, and the registers named are
functions of the fields all three keep. -/
theorem commandWriteFrame : Obligations.CommandWriteFrame := by
  unfold Obligations.CommandWriteFrame
  intro i s t h
  obtain ⟨b, rfl, hb⟩ := exec_cases h
  have hkept : b.cnt = s.blk.cnt ∧ b.dur = s.blk.dur ∧ b.presence = s.blk.presence ∧ b.errCmd = s.blk.errCmd
      ∧ b.pullupEn = s.blk.pullupEn ∧ b.pcnt = s.blk.pcnt ∧ b.rdur = s.blk.rdur := by
    obtain rfl | rfl | ⟨-, rfl⟩ := hb
    · simp
    · simp
    · simp [acceptEffect_frame, acceptEffect_counters]
  obtain ⟨hcnt, hdur, hpresence, hcmd, hpullup, hpcnt, hrdur⟩ := hkept
  refine ⟨rfl, rfl, rfl, rfl, rfl, hcnt, hdur, hpresence, hcmd, hpullup, hpcnt, hrdur, fun hi => ?_, fun hs => ?_,
    fun a free => Block.readReg_congr hpullup hpcnt hrdur free, fun n h0 h4 => ?_⟩
  · obtain rfl | rfl | ⟨-, rfl⟩ := hb
    · rfl
    · rfl
    · exact acceptEffect_data s.cfg s.blk hi
  · obtain rfl | rfl | ⟨hready, -⟩ := hb
    · rfl
    · rfl
    · exact absurd (hready.symm.trans hs) (by decide)
  · simp [Block.status_getLsbD, h0, h4, hpresence, hcmd]

end Sys2Proof.Machine
end

section
/-! What a tick writes to DATA and RDUR (41_bit_io.md R176, 40_sequencer.md R149), the frame of a tick, and when results
are written. -/

namespace Sys2Proof.Machine

/-- What a tick can do to DATA and RDUR: keep both, end a measurement (R176), or end the pad of a read slot (R179). -/
theorem Block.tick_read_cases (cfg : Params) (e : Bool) (b : Block) :
    (¬ (b.ph = .rdMeas ∧ e = true) ∧ (b.tick cfg e).data = b.data ∧ (b.tick cfg e).rdur = b.rdur)
    ∨ (b.ph = .rdMeas ∧ e = true ∧ (b.tick cfg e).data = setBit b.data b.idx (classify cfg b.dur.toNat)
      ∧ (b.tick cfg e).rdur
        = if cfg.rdurTime = .atMeasurement ∨ (b.tick cfg e).ph = .idle then b.dur else b.rdur)
    ∨ (b.ph = .rdPad ∧ b.tmr = 1#10 ∧ (b.tick cfg e).data = b.data
      ∧ (b.tick cfg e).rdur
        = if cfg.rdurTime = .atCommandEnd ∧ (b.tick cfg e).ph = .idle then b.dur else b.rdur) := by
  cases hp : b.ph with
  | idle => left; simp [Block.tick_idle hp]
  | rstLow => left; rw [Block.tick_rstLow hp]; split <;> simp
  | rstSamp => left; rw [Block.tick_rstSamp hp]; split <;> simp
  | wrLow => left; rw [Block.tick_wrLow hp]; split <;> simp
  | wrHigh => left; rw [Block.tick_wrHigh hp]; split <;> simp [Block.finishSlot_frame]
  | rdLow => left; rw [Block.tick_rdLow hp]; split <;> simp
  | rdMeas =>
    cases e with
    | false => left; simp [Block.tick_rdMeas_low hp]
    | true =>
      right; left
      rw [Block.tick_rdMeas_high hp]
      cases hr : cfg.rdurTime <;> split <;> simp [Block.finishReadSlot_frame, Block.finishReadSlot_rdur, hr]
  | rdPad =>
    rw [Block.tick_rdPad hp]
    split
    · right; right; simp [Block.finishReadSlot_frame, Block.finishReadSlot_rdur, *]
    · left; simp

section
variable {cfg : Params} (e : Bool) (b : Block)

/-- Under the reading of R176, RDUR takes `dur` where a measurement ends and nowhere else. -/
theorem Block.tick_rdur_of_atMeasurement (hr : cfg.rdurTime = .atMeasurement) :
    (b.tick cfg e).rdur = if b.ph = .rdMeas ∧ e = true then b.dur else b.rdur := by
  obtain ⟨hno, -, hrdur⟩ | ⟨hp, he, -, hrdur⟩ | ⟨hp, -, -, hrdur⟩ := Block.tick_read_cases cfg e b
  · rw [hrdur, if_neg hno]
  · rw [hrdur, if_pos (.inl hr), if_pos ⟨hp, he⟩]
  · rw [hrdur, if_neg (by simp [hr]), if_neg (by simp [hp])]

/-- Under the reading of R149 and R306, RDUR is kept or takes `dur` in the tick that ends a read command. -/
theorem Block.tick_rdur_of_atCommandEnd (hr : cfg.rdurTime = .atCommandEnd) :
    (b.tick cfg e).rdur = b.rdur
    ∨ (b.ph = .rdMeas ∧ e = true ∨ b.ph = .rdPad ∧ b.tmr = 1#10) ∧ (b.tick cfg e).ph = .idle
      ∧ (b.tick cfg e).rdur = b.dur := by
  obtain ⟨-, -, hrdur⟩ | ⟨hp, he, -, hrdur⟩ | ⟨hp, ht, -, hrdur⟩ := Block.tick_read_cases cfg e b
  · exact .inl hrdur
  · by_cases hidle : (b.tick cfg e).ph = .idle
    · exact .inr ⟨.inl ⟨hp, he⟩, hidle, by rw [hrdur, if_pos (.inr hidle)]⟩
    · exact .inl (by rw [hrdur, if_neg (by simp [hr, hidle])])
  · by_cases hidle : (b.tick cfg e).ph = .idle
    · exact .inr ⟨.inr ⟨hp, ht⟩, hidle, by rw [hrdur, if_pos ⟨hr, hidle⟩]⟩
    · exact .inl (by rw [hrdur, if_neg (by simp [hidle])])

/-- DATA is written where a measurement ends, and there only in the bit of the slot (R176, R200). -/
theorem Block.tick_data :
    (b.tick cfg e).data
      = if b.ph = .rdMeas ∧ e = true then setBit b.data b.idx (classify cfg b.dur.toNat) else b.data := by
  obtain ⟨hno, hdata, -⟩ | ⟨hp, he, hdata, -⟩ | ⟨hp, -, hdata, -⟩ := Block.tick_read_cases cfg e b
  · rw [hdata, if_neg hno]
  · rw [hdata, if_pos ⟨hp, he⟩]
  · rw [hdata, if_neg (by simp [hp])]

theorem Block.tick_data_getLsbD_of_ne {j : Nat} (hj : j ≠ b.idx.toNat) :
    (b.tick cfg e).data.getLsbD j = b.data.getLsbD j := by
  rw [Block.tick_data]
  split
  · rw [setBit_getLsbD, if_neg hj]
  · rfl

end

/-- Settles O23. -/
theorem tickFrame : Obligations.TickFrame := by
  unfold Obligations.TickFrame
  intro cfg e b
  obtain ⟨hbusy, hcmd, hop, hpullup, hpresence⟩ := Block.tick_frame cfg e b
  refine ⟨hbusy, hcmd, hpullup, hop, fun hno => ?_, fun hno => ?_, fun hr hno => ?_, fun hr hno => ?_,
    fun j hj => Block.tick_data_getLsbD_of_ne e b hj⟩
  · exact hpresence.resolve_right fun ⟨hp, ht, _⟩ => hno ⟨hp, ht⟩
  · rw [Block.tick_data, if_neg hno]
  · rw [Block.tick_rdur_of_atMeasurement e b hr, if_neg hno]
  · exact (Block.tick_rdur_of_atCommandEnd e b hr).resolve_right fun ⟨hlast, hidle, _⟩ => hno ⟨hlast, hidle⟩

/-- Settles O41: PRESENCE and PCNT by the window's last tick, which leaves the block IDLE; RDUR by the tick that ends a
read command or a measurement, as the parameter of log 22 says. -/
theorem resultsAreWrittenInTheLastTick : Obligations.ResultsAreWrittenInTheLastTick := by
  unfold Obligations.ResultsAreWrittenInTheLastTick
  intro cfg e b
  obtain ⟨-, -, -, -, hwindow⟩ := Block.tick_frame cfg e b
  have ends : b.ph = .rstSamp ∧ b.tmr = 1#10 ∧ (b.tick cfg e).ph = .idle →
      b.busy = true ∧ (b.tick cfg e).busy = false := fun ⟨hp, _, hidle⟩ => by simp [hp, hidle]
  refine ⟨fun hne => ?_, fun hne => ?_, fun hr hne => ?_, Block.tick_rdur_of_atMeasurement e b⟩
  · exact ends (hwindow.resolve_left fun ⟨hkept, _⟩ => hne hkept)
  · exact ends (hwindow.resolve_left fun ⟨_, hkept⟩ => hne hkept)
  · obtain ⟨hlast, hidle, hdur⟩ := (Block.tick_rdur_of_atCommandEnd e b hr).resolve_left hne
    refine ⟨b.busy_eq_true_iff.2 fun hp => ?_, (Block.busy_eq_false_iff _).2 hidle, hdur⟩
    simp [hp] at hlast

end Sys2Proof.Machine
end

section
/-! RESET, WRITE_BIT and WRITE_BYTE end (40_sequencer.md R150): the ticks left to the command, counted, go down with every
tick. -/

namespace Sys2Proof.Machine

/-- A phase of a read command (R148). -/
def Phase.reads : Phase → Bool
  | .idle => false
  | .rstLow => false
  | .rstSamp => false
  | .wrLow => false
  | .wrHigh => false
  | .rdLow => true
  | .rdMeas => true
  | .rdPad => true

theorem Phase.reads_eq_false_iff (p : Phase) : p.reads = false ↔ p ≠ .rdLow ∧ p ≠ .rdMeas ∧ p ≠ .rdPad := by
  cases p <;> simp [Phase.reads]

/-- The longer of the two write slots (R173). -/
def longestWriteSlot (cfg : Params) : Nat :=
  max (writeSlotTicks cfg true) (writeSlotTicks cfg false)

theorem writeSlotTicks_le_longest (cfg : Params) (x : Bool) :
    writeLow cfg x + writeHigh cfg x ≤ longestWriteSlot cfg := by
  cases x
  · exact le_max_right _ _
  · exact le_max_left _ _

/-- A bound of the ticks left until IDLE, in the phases of RESET and of the write commands: what is left of the phase, the
phases of the slot after it, and the longest slot for every slot a byte command may still have. The phases of a read
have no bound (R182). -/
def Block.ticksLeft (cfg : Params) (b : Block) : Nat :=
  match b.ph with
  | .idle => 0
  | .rstLow => b.tmr.toNat + cfg.tPdw
  | .rstSamp => b.tmr.toNat
  | .wrLow => b.tmr.toNat + writeHigh cfg b.slotBit + (7 - b.idx.toNat) * longestWriteSlot cfg
  | .wrHigh => b.tmr.toNat + (7 - b.idx.toNat) * longestWriteSlot cfg
  | .rdLow => 0
  | .rdMeas => 0
  | .rdPad => 0

section
variable {cfg : Params} {b : Block}

theorem Block.Inv.ticksLeft_le (h : b.Inv cfg) :
    b.ticksLeft cfg ≤ max (resetTicks cfg) (8 * longestWriteSlot cfg) := by
  have hslot := writeSlotTicks_le_longest cfg b.slotBit
  have hslots : (7 - b.idx.toNat) * longestWriteSlot cfg ≤ 7 * longestWriteSlot cfg :=
    Nat.mul_le_mul_right _ (Nat.sub_le _ _)
  cases hp : b.ph with
  | idle | rdLow | rdMeas | rdPad => simp [Block.ticksLeft, hp]
  | rstLow | rstSamp | wrLow | wrHigh =>
    obtain ⟨-, hlen⟩ := h.timer (by simp [hp, Phase.timed])
    simp only [Block.phaseTicks, Block.ticksLeft, resetTicks, hp] at hlen ⊢
    omega

theorem Block.Inv.idle_of_ticksLeft_zero (h : b.Inv cfg) (hreads : b.ph.reads = false) (h0 : b.ticksLeft cfg = 0) :
    b.ph = .idle := by
  cases hp : b.ph with
  | idle => rfl
  | rstLow | rstSamp | wrLow | wrHigh =>
    obtain ⟨h1, -⟩ := h.timer (by simp [hp, Phase.timed])
    simp only [Block.ticksLeft, hp] at h0
    omega
  | rdLow | rdMeas | rdPad => simp [hp, Phase.reads] at hreads

/-- A tick that only counts down is one tick less; in the window it also counts the line. -/
theorem Block.ticksLeft_countDown (h1 : 1 ≤ b.tmr.toNat) (hbusy : b.ph ≠ .idle) (hreads : b.ph.reads = false)
    (cnt : Count) : Block.ticksLeft cfg { b.countDown with cnt := cnt } < b.ticksLeft cfg := by
  have hd : (b.tmr - 1#10).toNat = b.tmr.toNat - 1 := by bv_omega
  cases hp : b.ph with
  | idle => exact absurd hp hbusy
  | rstLow | rstSamp | wrLow | wrHigh =>
    simp only [Block.ticksLeft, Block.slotBit, Block.countDown_ph, Block.countDown_tmr, Block.countDown_idx,
      Block.countDown_data, hp, hd]
    omega
  | rdLow | rdMeas | rdPad => simp [hp, Phase.reads] at hreads

/-- At the start of a write slot at most the longest slot is left for it and for each slot after it. -/
theorem Block.ticksLeft_startSlot (hc : cfg.ok = true) (hop : b.op ∈ Phase.wrLow.ops) :
    (b.startSlot cfg).ph.reads = false
    ∧ (b.startSlot cfg).ticksLeft cfg ≤ (8 - b.idx.toNat) * longestWriteSlot cfg := by
  have hslot := writeSlotTicks_le_longest cfg b.slotBit
  have htmr := timer_toNat (writeLow_bounds hc b.slotBit).2
  have hbit : (b.enter .wrLow (writeLow cfg b.slotBit)).slotBit = b.slotBit := rfl
  have hmore : 8 - b.idx.toNat = 7 - b.idx.toNat + 1 := by bv_omega
  rw [Block.startSlot_of_writes cfg (b.opWrites_eq_true_iff.2 hop), hmore, Nat.succ_mul]
  refine ⟨rfl, ?_⟩
  simp only [Block.ticksLeft, Block.enter_ph, Block.enter_tmr, Block.enter_idx, hbit, htmr]
  omega

/-- The end of a write slot leaves at most the longest slot for each slot after it. -/
theorem Block.ticksLeft_finishSlot (hc : cfg.ok = true) (hop : b.op ∈ Phase.wrLow.ops) :
    (b.finishSlot cfg).ph.reads = false
    ∧ (b.finishSlot cfg).ticksLeft cfg ≤ (7 - b.idx.toNat) * longestWriteSlot cfg := by
  obtain ⟨-, hi, heq⟩ | ⟨-, heq⟩ := Block.finishSlot_cases cfg b
  · have hleft : 8 - (b.idx + 1#3).toNat = 7 - b.idx.toNat := by bv_omega
    rw [heq, ← hleft]
    exact Block.ticksLeft_startSlot (b := { b with idx := b.idx + 1#3 }) hc hop
  · rw [heq]
    exact ⟨rfl, Nat.zero_le _⟩

/-- Every tick of RESET and of the write commands, whatever the line, leaves fewer ticks (R150). -/
theorem Block.Inv.ticksLeft_tick (h : b.Inv cfg) (hc : cfg.ok = true) (hbusy : b.ph ≠ .idle)
    (hreads : b.ph.reads = false) (e : Bool) :
    (b.tick cfg e).ph.reads = false ∧ (b.tick cfg e).ticksLeft cfg < b.ticksLeft cfg := by
  have counted (h1 : 1 ≤ b.tmr.toNat) (cnt : Count) :
      b.ph.reads = false ∧ Block.ticksLeft cfg { b.countDown with cnt := cnt } < b.ticksLeft cfg :=
    ⟨hreads, Block.ticksLeft_countDown h1 hbusy hreads cnt⟩
  cases hp : b.ph with
  | idle => exact absurd hp hbusy
  | rstLow =>
    obtain ⟨h1, -⟩ := h.timer (by simp [hp, Phase.timed])
    rw [Block.tick_rstLow hp]
    split
    · obtain ⟨-, -, ⟨-, hfit, -⟩, -⟩ := (Params.ok_iff cfg).1 hc
      refine ⟨rfl, ?_⟩
      simp only [Block.ticksLeft, Block.enter_ph, Block.enter_tmr, hp, timer_toNat hfit]
      omega
    · exact counted h1 b.cnt
  | rstSamp =>
    obtain ⟨h1, -⟩ := h.timer (by simp [hp, Phase.timed])
    rw [Block.tick_rstSamp hp]
    split
    · refine ⟨rfl, ?_⟩
      simp only [Block.ticksLeft, Block.toIdle_ph, hp]
      omega
    · exact counted h1 (b.countWith e)
  | wrLow =>
    obtain ⟨h1, -⟩ := h.timer (by simp [hp, Phase.timed])
    rw [Block.tick_wrLow hp]
    split
    · have htmr := timer_toNat (writeHigh_bounds hc b.slotBit).2
      refine ⟨rfl, ?_⟩
      simp only [Block.ticksLeft, Block.enter_ph, Block.enter_tmr, Block.enter_idx, hp, htmr]
      omega
    · exact counted h1 b.cnt
  | wrHigh =>
    obtain ⟨h1, -⟩ := h.timer (by simp [hp, Phase.timed])
    rw [Block.tick_wrHigh hp]
    split
    · obtain ⟨hnext, hle⟩ := Block.ticksLeft_finishSlot hc (h.op_mem_ops (q := .wrLow) hp nofun rfl)
      refine ⟨hnext, hle.trans_lt ?_⟩
      simp only [Block.ticksLeft, hp]
      omega
    · exact counted h1 b.cnt
  | rdLow | rdMeas | rdPad => simp [hp, Phase.reads] at hreads

/-- As many ticks as are left end the command: by induction on the ticks. -/
theorem Block.Inv.ticks_idle_of_ticksLeft_le (h : b.Inv cfg) (hc : cfg.ok = true) (hreads : b.ph.reads = false)
    {envs : List Bool} (hl : b.ticksLeft cfg ≤ envs.length) : (b.ticks cfg envs).ph = .idle := by
  induction envs generalizing b with
  | nil => exact h.idle_of_ticksLeft_zero hreads (Nat.le_zero.1 hl)
  | cons e es ih =>
    by_cases hidle : b.ph = .idle
    · rw [Block.ticks_idle cfg _ hidle, hidle]
    · obtain ⟨hreads', hlt⟩ := h.ticksLeft_tick hc hidle hreads e
      rw [List.length_cons] at hl
      exact ih (h.tick hc e) hreads' (by omega)

end

/-- Settles O37: the bound is that of the ticks left in every phase. -/
theorem commandsButReadsEnd : Obligations.CommandsButReadsEnd := by
  unfold Obligations.CommandsButReadsEnd
  intro cfg b envs hc h hlow hmeas hpad hl
  exact h.ticks_idle_of_ticksLeft_le hc (b.ph.reads_eq_false_iff.2 ⟨hlow, hmeas, hpad⟩) (h.ticksLeft_le.trans hl)

end Sys2Proof.Machine
end

section
/-! A write slot from its first tick to its last, and WRITE_BIT (41_bit_io.md R170 to R173). -/

namespace Sys2Proof.Machine

/-- The slot's length with R11's monus written as `-`. -/
theorem writeSlotTicks_eq (cfg : Params) (x : Bool) :
    writeSlotTicks cfg x = writeLow cfg x + (cfg.tSlot - writeLow cfg x) + cfg.tRec := by
  rw [writeSlotTicks, writeHigh, satSub_eq, Nat.add_assoc]

/-- The block at the first tick of a write slot. -/
structure Block.AtWriteSlot (cfg : Params) (b : Block) : Prop where
  phase : b.ph = .wrLow
  timer : b.tmr.toNat = writeLow cfg b.slotBit

theorem acceptEffect_writeBit_atSlot {cfg : Params} (hc : cfg.ok = true) (b : Block) :
    (acceptEffect .writeBit cfg b).AtWriteSlot cfg :=
  ⟨rfl, timer_toNat (writeLow_bounds hc (b.data.getLsbD 0)).2⟩

section
variable {cfg : Params} {b : Block} {es : List Bool}

/-- The ticks of the low part take the slot to the first tick of WR_HIGH. -/
theorem Block.AtWriteSlot.ticks_low (h : b.AtWriteSlot cfg) (hc : cfg.ok = true)
    (hlen : es.length = writeLow cfg b.slotBit) :
    b.ticks cfg es = b.enter .wrHigh (writeHigh cfg b.slotBit) := by
  have h1 : 1 ≤ b.tmr.toNat := h.timer ▸ (writeLow_bounds hc b.slotBit).1
  obtain ⟨e, hlast⟩ := Block.ticks_lastTick cfg es (by simp [h.phase, Phase.countsDown]) h1 (hlen.trans h.timer.symm)
  rw [hlast, Block.tick_wrLow (b := { b with tmr := 1#10 }) h.phase, if_pos rfl]
  rfl

/-- From the end of the low part on, the slot is WR_HIGH from its first tick. -/
theorem Block.AtWriteSlot.ticks_past_low (h : b.AtWriteSlot cfg) (hc : cfg.ok = true)
    (hlen : writeLow cfg b.slotBit ≤ es.length) :
    b.ticks cfg es
      = (b.enter .wrHigh (writeHigh cfg b.slotBit)).ticks cfg (es.drop (writeLow cfg b.slotBit)) := by
  rw [← h.ticks_low hc (List.length_take_of_le hlen), ← Block.ticks_append, List.take_append_drop]

/-- Inside a write slot the phase is WR_LOW for L ticks and then WR_HIGH, and but for the timer nothing else differs from
the slot's start. -/
theorem Block.AtWriteSlot.ticks_inside (h : b.AtWriteSlot cfg) (hc : cfg.ok = true)
    (hlen : es.length < writeSlotTicks cfg b.slotBit) :
    ∃ n, b.ticks cfg es
      = { b with ph := if es.length < writeLow cfg b.slotBit then .wrLow else .wrHigh, tmr := n } := by
  by_cases hlow : es.length < writeLow cfg b.slotBit
  · rw [if_pos hlow, ← h.phase]
    exact ⟨_, Block.ticks_countDown cfg es (by simp [h.phase, Phase.countsDown]) (h.timer ▸ hlow)⟩
  · have htmr := timer_toNat (writeHigh_bounds hc b.slotBit).2
    have hrest : (es.drop (writeLow cfg b.slotBit)).length < writeHigh cfg b.slotBit := by
      rw [writeSlotTicks] at hlen
      rw [List.length_drop]
      omega
    rw [if_neg hlow, h.ticks_past_low hc (Nat.le_of_not_lt hlow)]
    exact ⟨_, Block.ticks_countDown cfg _ rfl (by rwa [Block.enter_tmr, htmr])⟩

/-- R173 after `k` ticks of the slot. -/
theorem Block.AtWriteSlot.waveform {k : Nat} (h : b.AtWriteSlot cfg) (hc : cfg.ok = true) (hlen : es.length = k)
    (hk : k < writeSlotTicks cfg b.slotBit) :
    (b.ticks cfg es).busy = true ∧ (b.ticks cfg es).driveLow = decide (k < writeLow cfg b.slotBit) := by
  subst hlen
  obtain ⟨n, heq⟩ := h.ticks_inside hc hk
  rw [heq]
  by_cases hlow : es.length < writeLow cfg b.slotBit
  · simp [Block.driveLow, hlow]
  · simp [Block.driveLow, hlow]

/-- After all its ticks the slot is finished (R171). -/
theorem Block.AtWriteSlot.ticks_all (h : b.AtWriteSlot cfg) (hc : cfg.ok = true)
    (hlen : es.length = writeSlotTicks cfg b.slotBit) :
    b.ticks cfg es = Block.finishSlot cfg { b with ph := .wrHigh, tmr := 1#10 } := by
  obtain ⟨h1, hfit⟩ := writeHigh_bounds hc b.slotBit
  have htmr := timer_toNat hfit
  rw [writeSlotTicks] at hlen
  rw [h.ticks_past_low hc (by omega)]
  obtain ⟨e, hlast⟩ := Block.ticks_lastTick cfg (es.drop (writeLow cfg b.slotBit))
    (b := b.enter .wrHigh (writeHigh cfg b.slotBit)) rfl (by rwa [Block.enter_tmr, htmr])
    (by rw [Block.enter_tmr, htmr, List.length_drop]; omega)
  rw [hlast, Block.tick_wrHigh rfl, if_pos rfl]
  rfl

end

/-- Settles O26: the slot's two parts run one after the other, and L + sat_sub(T_SLOT, L) is max(L, T_SLOT). -/
theorem writeSlotWaveform : Obligations.WriteSlotWaveform := by
  unfold Obligations.WriteSlotWaveform
  intro cfg b envs hc hp low htmr hlen
  have h : b.AtWriteSlot cfg := ⟨hp, htmr⟩
  have hall : envs.length = writeSlotTicks cfg b.slotBit := by
    rw [hlen, writeSlotTicks_eq, show writeLow cfg b.slotBit = low from rfl]
    omega
  exact ⟨fun k hk => h.waveform hc (List.length_take_of_le hk.le) (hall ▸ hk), h.ticks_all hc hall⟩

/-- Settles O28: the framer ends a bit command after its one slot, and neither the slot nor the framer writes a
register. -/
theorem writeBitSendsOneSlot : Obligations.WriteBitSendsOneSlot := by
  unfold Obligations.WriteBitSendsOneSlot
  intro s envs hready low hlen
  obtain ⟨hc, -, -⟩ := s.ready_iff.1 hready
  have h := acceptEffect_writeBit_atSlot hc s.blk
  have hall : envs.length = writeSlotTicks s.cfg (acceptEffect .writeBit s.cfg s.blk).slotBit := by
    rw [hlen, writeSlotTicks_eq]
    rfl
  have hend := h.ticks_all hc hall
  refine ⟨_, exec_of_ready .writeBit hready, fun k hk => ?_, ?_, fun k => ?_⟩
  · exact h.waveform hc (List.length_take_of_le hk.le) (hall ▸ hk)
  · rw [State.setBlk_blk, hend]
    rfl
  · dsimp only
    rw [State.setBlk_blk]
    by_cases hk : k < envs.length
    · obtain ⟨n, heq⟩ := h.ticks_inside hc (es := envs.take k) (by rw [List.length_take]; omega)
      simp [heq, acceptEffect_frame, acceptEffect_data]
    · rw [List.take_of_length_le (by omega), hend]
      simp [Block.finishSlot_frame, acceptEffect_frame, acceptEffect_data]

end Sys2Proof.Machine
end

section
/-! READ_BIT, a read slot on a line that stays low, and the pads (41_bit_io.md R178, R180 to R182). -/

namespace Sys2Proof.Machine

/-! ### Inside a read slot -/

section
variable {cfg : Params} {b : Block} {d k : Nat} {envs post : List Bool}

/-- After the measurement, fewer ticks than the pad's stay in RD_PAD. -/
theorem Block.ticks_measured_insidePad (hc : cfg.ok = true) (hp : b.ph = .rdMeas) (hd : b.dur = measured d)
    (hpost : post.length < readPad cfg (classify cfg d) d) : (b.ticks cfg (true :: post)).ph = .rdPad := by
  have hpad : readPad cfg (classify cfg b.dur.toNat) b.dur.toNat = readPad cfg (classify cfg d) d := by
    rw [hd, measured_toNat, classify_min_durMax hc, readPad_min_durMax hc]
  have hfit := readPad_le hc (classify cfg d) d
  rw [Block.ticks_cons, Block.tick_rdMeas_high hp, hpad, if_neg (by omega),
    Block.ticks_countDown cfg post rfl (by rwa [Block.enter_tmr, timer_toNat (by omega)])]
  rfl

/-- R181: the phases of a read slot, tick by tick: RD_LOW for T_RDL ticks, RD_MEAS for d + 1, RD_PAD for the rest. -/
theorem Block.ticks_readSlot_ph (hc : cfg.ok = true) (hp : b.ph = .rdLow) (ht : b.tmr = BitVec.ofNat 10 cfg.tRdl)
    (hslot : IsReadSlot cfg d envs) (hk : k < envs.length) :
    (b.ticks cfg (envs.take k)).ph
      = if k < cfg.tRdl then .rdLow else if k ≤ cfg.tRdl + d then .rdMeas else .rdPad := by
  obtain ⟨⟨-, -, -, -, h1, -⟩, -, ⟨-, -, -, -, -, -, -, hfit⟩, -⟩ := (Params.ok_iff cfg).1 hc
  obtain ⟨pre, post, hpre, hpost, rfl⟩ := hslot
  have htmr : b.tmr.toNat = cfg.tRdl := by rw [ht, timer_toNat hfit]
  have hmeas (n : Nat) := Block.ticks_rdLow_rdMeas (cfg := cfg) (pre := pre) n hp (by omega) (by omega)
  by_cases hlow : k < cfg.tRdl
  · rw [if_pos hlow, Block.ticks_countDown cfg _ (by simp [hp, Phase.countsDown]) (by rw [List.length_take]; omega)]
    exact hp
  rw [if_neg hlow]
  by_cases hd : k ≤ cfg.tRdl + d
  · have htake : (pre ++ List.replicate d false ++ true :: post).take k
        = pre ++ List.replicate (k - cfg.tRdl) false := by
      rw [List.take_append_of_le_length (by simp; omega), List.take_append, List.take_of_length_le (by omega),
        List.take_replicate, hpre, Nat.min_eq_left (by omega)]
    rw [if_pos hd, htake, hmeas]
  · obtain ⟨m, rfl⟩ : ∃ m, k = (pre ++ List.replicate d false).length + (m + 1) :=
      ⟨k - (cfg.tRdl + d + 1), by simp; omega⟩
    rw [if_neg hd, List.take_length_add_append, List.take_succ_cons, Block.ticks_append, hmeas]
    refine Block.ticks_measured_insidePad hc rfl rfl ?_
    simp only [List.length_append, List.length_cons] at hk
    rw [List.length_take]
    omega

/-- A read slot is busy throughout and drives the line low for T_RDL ticks. -/
theorem Block.readSlot_waveform (hc : cfg.ok = true) (hp : b.ph = .rdLow) (ht : b.tmr = BitVec.ofNat 10 cfg.tRdl)
    (hslot : IsReadSlot cfg d envs) (hk : k < envs.length) :
    (b.ticks cfg (envs.take k)).busy = true
    ∧ (b.ticks cfg (envs.take k)).driveLow = decide (k < cfg.tRdl) := by
  have hph := Block.ticks_readSlot_ph hc hp ht hslot hk
  by_cases hlow : k < cfg.tRdl
  · simp [Block.busy, Block.driveLow, hph, hlow]
  · by_cases hd : k ≤ cfg.tRdl + d
    · simp [Block.busy, Block.driveLow, hph, hlow, hd]
    · simp [Block.busy, Block.driveLow, hph, hlow, hd]

end

/-! ### READ_BIT -/

section
variable {cfg : Params} {d : Nat}

theorem readPad_classify (cfg : Params) (d : Nat) :
    readPad cfg (classify cfg d) d = if d < cfg.tRth then cfg.tRp1 - d else cfg.tRp0 - d := by
  simp [readPad, classify]

theorem IsReadSlot.length_eq {envs : List Bool} (h : IsReadSlot cfg d envs) :
    envs.length = readSlotTicks cfg d := by
  obtain ⟨pre, post, hpre, hpost, rfl⟩ := h
  simp only [readSlotTicks, List.length_append, List.length_cons, List.length_replicate, hpre, hpost]
  omega

/-- `zext_8` of the bit: bit 0 of a cleared DATA set to it (R180). -/
theorem setBit_zero_zero (x : Bool) : setBit 0x00#8 0#3 x = zextBit x := by
  cases x <;> decide

/-- R180: the block after a READ_BIT's slot, under either time of log 22. -/
theorem ticks_readBit {envs : List Bool} (hc : cfg.ok = true) (hslot : IsReadSlot cfg d envs) (b : Block) :
    (acceptEffect .readBit cfg b).ticks cfg envs
      = { acceptEffect .readBit cfg b with
          ph := .idle, tmr := 1#10, dur := measured d, data := zextBit (classify cfg d), rdur := measured d } := by
  obtain ⟨p, heq⟩ := Block.ticks_readSlot (b := acceptEffect .readBit cfg b) hc rfl rfl hslot
  have hdata : setBit 0x00#8 0#3 (classify cfg (measured d).toNat) = zextBit (classify cfg d) := by
    rw [measured_toNat, classify_min_durMax hc, setBit_zero_zero]
  have hrdur : (if cfg.rdurTime = .atCommandEnd then measured d
      else if cfg.rdurTime = .atMeasurement then measured d else b.rdur) = measured d := by
    cases cfg.rdurTime <;> rfl
  rw [heq, Block.finishReadSlot_of_end rfl]
  simp only [Block.mk.injEq]
  exact ⟨rfl, rfl, rfl, rfl, rfl, rfl, hdata, rfl, rfl, rfl, rfl, rfl, hrdur⟩

end

/-- Settles O29: the waveform is the slot's, and the block at the end is that of `ticks_readBit`. -/
theorem readBitMeasuresOneSlot : Obligations.ReadBitMeasuresOneSlot := by
  unfold Obligations.ReadBitMeasuresOneSlot
  intro s d envs hready hslot
  obtain ⟨hc, -, -⟩ := s.ready_iff.1 hready
  refine ⟨_, exec_of_ready .readBit hready, ?_, fun k hk => ?_, ?_⟩
  · rw [hslot.length_eq, readSlotTicks, readPad_classify]
  · exact Block.readSlot_waveform hc rfl rfl hslot hk
  · rw [State.setBlk_blk, ticks_readBit hc hslot]
    refine ⟨rfl, ?_, measured_toNat d, rfl, rfl, rfl, rfl, rfl⟩
    simp [zextBit, classify]

/-! ### A line that stays low, and saturation -/

theorem measured_dur (x : Duration) : measured x.toNat = x :=
  BitVec.eq_of_toNat_eq (by rw [measured_toNat]; omega)

/-- Settles O34: low ticks only count `dur`, and the block, still in RD_MEAS, is busy. -/
theorem stuckLowLineHangs : Obligations.StuckLowLineHangs := by
  unfold Obligations.StuckLowLineHangs
  intro s n hc hr hp b
  have hb : b = { s.blk with dur := measured (s.blk.dur.toNat + n) } :=
    Block.ticks_rdMeas_low _ n hp (measured_dur _).symm
  have hbusy : b.busy = true := by rw [hb, Block.busy_eq_true_iff]; simp [hp]
  refine ⟨hb, hbusy, fun i => ?_⟩
  rw [exec_eq_guardedWrite, guardedWrite_of_busy (s := s.setBlk b) hc hr hbusy]
  rfl

/-- Settles O35: D_MAX covers T_RTH and both pad bases (R9). -/
theorem saturationChangesNoResult : Obligations.SaturationChangesNoResult := by
  unfold Obligations.SaturationChangesNoResult
  refine ⟨fun cfg d => by simp [readPad], fun cfg d hc => ?_, fun d => ?_⟩
  · rw [classify_min_durMax hc, readPad_min_durMax hc]
    exact ⟨rfl, rfl⟩
  · rw [readPad_classify]
    simp only [Params.default_tRth, Params.default_tRp1, Params.default_tRp0]
    split <;> omega

end Sys2Proof.Machine
end

section
/-! WRITE_BYTE: eight write slots back to back (42_byte_io.md R200, R201, R204). -/

namespace Sys2Proof.Machine

/-- The block at the first tick of slot `i` of a WRITE_BYTE accepted on `b`. -/
def Block.writeByteSlot (cfg : Params) (b : Block) (i : Nat) : Block :=
  Block.startSlot cfg { b.startCommand .writeByte with idx := BitVec.ofNat 3 i }

theorem acceptEffect_writeByte_eq_slot (cfg : Params) (b : Block) :
    acceptEffect .writeByte cfg b = b.writeByteSlot cfg 0 := rfl

/-! ### The lengths of the slots -/

section
variable {cfg : Params} {v : Byte} {i k n : Nat}

theorem writeSlotStart_succ (cfg : Params) (v : Byte) (i : Nat) :
    writeSlotStart cfg v (i + 1) = writeSlotStart cfg v i + writeSlotTicks cfg (v.getLsbD i) := rfl

theorem writeSlotStart_mono (h : i ≤ n) : writeSlotStart cfg v i ≤ writeSlotStart cfg v n := by
  induction h with
  | refl => exact Nat.le_refl _
  | step _ ih => exact Nat.le_add_right_of_le ih

/-- A tick of slot `i` is a tick of the command. -/
theorem writeSlotStart_add_lt (hi : i < 8) (hk : k < writeSlotTicks cfg (v.getLsbD i)) :
    writeSlotStart cfg v i + k < writeByteTicks cfg v :=
  calc writeSlotStart cfg v i + k < writeSlotStart cfg v (i + 1) := Nat.add_lt_add_left hk _
    _ ≤ writeByteTicks cfg v := writeSlotStart_mono hi

/-- The slots cover the command: a tick before slot `n` lies in one of the slots before it. -/
theorem exists_writeSlot_of_lt (h : k < writeSlotStart cfg v n) :
    ∃ i j, i < n ∧ j < writeSlotTicks cfg (v.getLsbD i) ∧ k = writeSlotStart cfg v i + j := by
  induction n with
  | zero => simp [writeSlotStart] at h
  | succ n ih =>
    rw [writeSlotStart_succ] at h
    by_cases hn : k < writeSlotStart cfg v n
    · obtain ⟨i, j, hi, hj, rfl⟩ := ih hn
      exact ⟨i, j, by omega, hj, rfl⟩
    · exact ⟨n, k - writeSlotStart cfg v n, by omega, by omega, by omega⟩

end

/-! ### From slot to slot -/

section
variable {cfg : Params} {b : Block} {i k : Nat} {es : List Bool}

/-- Slot `i` sends DATA[i] (R200). -/
theorem Block.writeByteSlot_slotBit (hi : i < 8) : (b.writeByteSlot cfg i).slotBit = b.data.getLsbD i := by
  have hidx : (BitVec.ofNat 3 i).toNat = i := Nat.mod_eq_of_lt hi
  exact congrArg b.data.getLsbD hidx

theorem Block.writeByteSlot_atSlot (hc : cfg.ok = true) : (b.writeByteSlot cfg i).AtWriteSlot cfg :=
  ⟨rfl, timer_toNat (writeLow_bounds hc _).2⟩

/-- A slot starts with every register as it was when the command was accepted. -/
theorem Block.writeByteSlot_frame (cfg : Params) (b : Block) (i : Nat) :
    (b.writeByteSlot cfg i).data = b.data ∧ (b.writeByteSlot cfg i).rdur = b.rdur
    ∧ (b.writeByteSlot cfg i).presence = b.presence ∧ (b.writeByteSlot cfg i).pcnt = b.pcnt
    ∧ (b.writeByteSlot cfg i).pullupEn = b.pullupEn ∧ (b.writeByteSlot cfg i).errBusy = b.errBusy
    ∧ (b.writeByteSlot cfg i).errCmd = b.errCmd :=
  ⟨rfl, rfl, rfl, rfl, rfl, rfl, rfl⟩

/-- The framer starts the next slot with no tick between (R146). -/
theorem Block.finishSlot_writeByteSlot (hi : i < 7) :
    Block.finishSlot cfg { b.writeByteSlot cfg i with ph := .wrHigh, tmr := 1#10 } = b.writeByteSlot cfg (i + 1) := by
  have hmore : (BitVec.ofNat 3 i).toNat < 7 := by rw [BitVec.toNat_ofNat]; omega
  rw [Block.writeByteSlot, Block.writeByteSlot, BitVec.ofNat_add]
  exact if_pos (decide_eq_true hmore)

theorem Block.ticks_writeByteSlot (hc : cfg.ok = true) (hi : i < 8)
    (hlen : es.length = writeSlotTicks cfg (b.data.getLsbD i)) :
    (b.writeByteSlot cfg i).ticks cfg es
      = Block.finishSlot cfg { b.writeByteSlot cfg i with ph := .wrHigh, tmr := 1#10 } :=
  (Block.writeByteSlot_atSlot hc).ticks_all hc (by rwa [Block.writeByteSlot_slotBit hi])

/-- After the slots before it, whatever the line did, the command is at slot `i`. -/
theorem Block.ticks_to_writeByteSlot (hc : cfg.ok = true) (hi : i < 8)
    (hlen : es.length = writeSlotStart cfg b.data i) :
    (acceptEffect .writeByte cfg b).ticks cfg es = b.writeByteSlot cfg i := by
  induction i generalizing es with
  | zero => rw [List.eq_nil_of_length_eq_zero hlen, Block.ticks_nil, acceptEffect_writeByte_eq_slot]
  | succ i ih =>
    rw [writeSlotStart_succ] at hlen
    rw [← List.take_append_drop (writeSlotStart cfg b.data i) es, Block.ticks_append,
      ih (by omega) (List.length_take_of_le (by omega)),
      Block.ticks_writeByteSlot hc (by omega) (by rw [List.length_drop]; omega),
      Block.finishSlot_writeByteSlot (by omega)]

/-- After `k` ticks of slot `i`. -/
theorem Block.ticks_in_writeByteSlot (hc : cfg.ok = true) (hi : i < 8)
    (hlen : es.length = writeSlotStart cfg b.data i + k) :
    ∃ fs : List Bool, fs.length = k
      ∧ (acceptEffect .writeByte cfg b).ticks cfg es = (b.writeByteSlot cfg i).ticks cfg fs := by
  refine ⟨es.drop (writeSlotStart cfg b.data i), by rw [List.length_drop]; omega, ?_⟩
  have hstart : (es.take (writeSlotStart cfg b.data i)).length = writeSlotStart cfg b.data i :=
    List.length_take_of_le (by omega)
  rw [← Block.ticks_to_writeByteSlot hc hi hstart, ← Block.ticks_append, List.take_append_drop]

/-- R201's waveform: slot `i` drives low for the L of DATA[i]. -/
theorem writeByte_waveform (hc : cfg.ok = true) (hi : i < 8)
    (hk : k < writeSlotTicks cfg (b.data.getLsbD i)) (hlen : es.length = writeSlotStart cfg b.data i + k) :
    ((acceptEffect .writeByte cfg b).ticks cfg es).busy = true
    ∧ ((acceptEffect .writeByte cfg b).ticks cfg es).driveLow = decide (k < writeLow cfg (b.data.getLsbD i)) := by
  obtain ⟨fs, hfs, heq⟩ := Block.ticks_in_writeByteSlot hc hi hlen
  rw [heq, ← Block.writeByteSlot_slotBit (cfg := cfg) hi]
  exact (Block.writeByteSlot_atSlot hc).waveform hc hfs (by rwa [Block.writeByteSlot_slotBit hi])

/-- After the eight slots the block is IDLE, with every register as it was. -/
theorem ticks_writeByte (hc : cfg.ok = true) (hlen : es.length = writeByteTicks cfg b.data) :
    (acceptEffect .writeByte cfg b).ticks cfg es = { b.writeByteSlot cfg 7 with ph := .idle, tmr := 1#10 } := by
  obtain ⟨fs, hfs, heq⟩ := Block.ticks_in_writeByteSlot hc (Nat.lt_succ_self 7) hlen
  rw [heq, Block.ticks_writeByteSlot hc (Nat.lt_succ_self 7) hfs]
  rfl

theorem ticks_writeByte_busy (hc : cfg.ok = true) (hlen : es.length = writeByteTicks cfg b.data) :
    ((acceptEffect .writeByte cfg b).ticks cfg es).busy = false := by
  rw [ticks_writeByte hc hlen]
  rfl

end

/-- Settles O30: the slots follow one another from acceptance on, and a tick of the command is a tick of one of them. -/
theorem writeByteSendsEightSlots : Obligations.WriteByteSendsEightSlots := by
  unfold Obligations.WriteByteSendsEightSlots
  intro s envs hready hlen
  obtain ⟨hc, -, -⟩ := s.ready_iff.1 hready
  refine ⟨_, exec_of_ready .writeByte hready, fun i k hi => ?_, ticks_writeByte_busy hc hlen, fun k => ?_⟩
  · intro low hk
    have hslot : k < writeSlotTicks s.cfg (s.blk.data.getLsbD i) := by rwa [writeSlotTicks_eq]
    have hlt := writeSlotStart_add_lt hi hslot
    exact writeByte_waveform hc hi hslot (List.length_take_of_le (by omega))
  · dsimp only
    rw [State.setBlk_blk]
    by_cases hk : k < envs.length
    · obtain ⟨i, j, hi, hj, rfl⟩ := exists_writeSlot_of_lt (n := 8) (hlen ▸ hk)
      obtain ⟨fs, rfl, heq⟩ := Block.ticks_in_writeByteSlot hc hi (List.length_take_of_le hk.le)
      obtain ⟨n, hinside⟩ := (Block.writeByteSlot_atSlot (b := s.blk) (i := i) hc).ticks_inside hc (es := fs)
        (by rwa [Block.writeByteSlot_slotBit hi])
      rw [heq, hinside]
      exact Block.writeByteSlot_frame s.cfg s.blk i
    · rw [List.take_of_length_le (by omega), ticks_writeByte hc hlen]
      exact Block.writeByteSlot_frame s.cfg s.blk 7

end Sys2Proof.Machine
end

section
/-! READ_BYTE: eight read slots back to back into a cleared DATA (42_byte_io.md R200, R202), and the round trip of
R205. -/

namespace Sys2Proof.Machine

/-! ### One slot and its framer -/

section
variable {cfg : Params} {b : Block} {i d : Nat} {envs : List Bool}

/-- A read slot followed by another one: the framer starts it in the same tick (R146). -/
theorem Block.AtReadByteSlot.ticks_next (h : b.AtReadByteSlot cfg i) (hc : cfg.ok = true)
    (hslot : IsReadSlot cfg d envs) (hi : i < 7) : (b.ticks cfg envs).AtReadByteSlot cfg (i + 1) := by
  obtain ⟨p, heq⟩ := Block.ticks_readSlot hc h.phase h.timer hslot
  have hnext := Block.finishSlot_readByte_next (cfg := cfg) (b := { b.afterMeasurement cfg d with ph := p })
    h.command (h.index.trans_lt hi)
  rw [heq, ← h.index]
  exact ⟨hnext.phase, hnext.timer, hnext.command, hnext.index⟩

/-- The slot after which no other comes leaves the block IDLE, with RDUR written under either time of log 22. -/
theorem Block.AtReadByteSlot.ticks_last (h : b.AtReadByteSlot cfg 7) (hc : cfg.ok = true)
    (hslot : IsReadSlot cfg d envs) :
    (b.ticks cfg envs).ph = .idle ∧ (b.ticks cfg envs).rdur = measured d := by
  obtain ⟨p, heq⟩ := Block.ticks_readSlot hc h.phase h.timer hslot
  have hend : (b.opIsByte && decide (b.idx.toNat < 7)) = false := by simp [h.index]
  have hrdur : (if cfg.rdurTime = .atCommandEnd then measured d
      else if cfg.rdurTime = .atMeasurement then measured d else b.rdur) = measured d := by
    cases cfg.rdurTime <;> rfl
  rw [heq, Block.finishReadSlot_of_end (b := { b.afterMeasurement cfg d with ph := p }) hend]
  exact ⟨rfl, hrdur⟩

/-- What a slot does to the registers: its bit of DATA is the measurement's, and STATUS (BUSY apart), PCNT and
PULLUP_EN stay. -/
theorem Block.AtReadByteSlot.ticks_frame (h : b.AtReadByteSlot cfg i) (hc : cfg.ok = true)
    (hslot : IsReadSlot cfg d envs) :
    (b.ticks cfg envs).data = setBit b.data b.idx (classify cfg d)
    ∧ (b.ticks cfg envs).presence = b.presence ∧ (b.ticks cfg envs).pcnt = b.pcnt
    ∧ (b.ticks cfg envs).pullupEn = b.pullupEn ∧ (b.ticks cfg envs).errBusy = b.errBusy
    ∧ (b.ticks cfg envs).errCmd = b.errCmd := by
  obtain ⟨p, heq⟩ := Block.ticks_readSlot hc h.phase h.timer hslot
  simp [heq, Block.finishReadSlot_frame, Block.afterMeasurement, measured_toNat, classify_min_durMax hc]

end

/-! ### The slots in a row -/

/-- The registers of `b` after the read slots `slots` of a READ_BYTE accepted on `b₀`: the bits measured so far, and what
the command does not write. -/
structure Block.HasRead (cfg : Params) (b : Block) (slots : List (Nat × List Bool)) (b₀ : Block) : Prop where
  bits : ∀ j p, slots[j]? = some p → b.data.getLsbD j = classify cfg p.1
  presence : b.presence = b₀.presence
  pcnt : b.pcnt = b₀.pcnt
  pullupEn : b.pullupEn = b₀.pullupEn
  errBusy : b.errBusy = b₀.errBusy
  errCmd : b.errCmd = b₀.errCmd

section
variable {cfg : Params} {b₀ b : Block} {slots : List (Nat × List Bool)} {p : Nat × List Bool}

/-- One more slot sets the bit after those measured so far and keeps these. -/
theorem Block.HasRead.ticks_slot (h : b.HasRead cfg slots b₀) (hat : b.AtReadByteSlot cfg slots.length)
    (hc : cfg.ok = true) (hslot : IsReadSlot cfg p.1 p.2) : (b.ticks cfg p.2).HasRead cfg (slots ++ [p]) b₀ := by
  obtain ⟨hdata, hpresence, hpcnt, hpullup, herrBusy, herrCmd⟩ := hat.ticks_frame hc hslot
  refine ⟨fun j q hj => ?_, hpresence.trans h.presence, hpcnt.trans h.pcnt, hpullup.trans h.pullupEn,
    herrBusy.trans h.errBusy, herrCmd.trans h.errCmd⟩
  rw [hdata, setBit_getLsbD, hat.index]
  by_cases hnew : j = slots.length
  · subst hnew
    obtain rfl : p = q := by simpa using hj
    exact if_pos rfl
  · have hlt : j < (slots ++ [p]).length := (List.getElem?_eq_some_iff.1 hj).1
    rw [List.length_append, List.length_singleton] at hlt
    rw [if_neg hnew]
    exact h.bits j q (by rwa [List.getElem?_append_left (by omega)] at hj)

/-- A READ_BYTE after its first slots: by induction on their number, the last slot split off. -/
theorem ticks_readByte_slots (hc : cfg.ok = true) (b₀ : Block) (hlen : slots.length ≤ 8)
    (hslots : ∀ p ∈ slots, IsReadSlot cfg p.1 p.2) :
    ((acceptEffect .readByte cfg b₀).ticks cfg (slots.flatMap Prod.snd)).HasRead cfg slots b₀
    ∧ (slots.length < 8 →
        ((acceptEffect .readByte cfg b₀).ticks cfg (slots.flatMap Prod.snd)).AtReadByteSlot cfg slots.length) := by
  induction slots using List.reverseRecOn with
  | nil => exact ⟨⟨by simp, rfl, rfl, rfl, rfl, rfl⟩, fun _ => acceptEffect_readByte_atSlot cfg b₀⟩
  | append_singleton slots p ih =>
    rw [List.length_append, List.length_singleton] at hlen ⊢
    obtain ⟨hread, hat⟩ := ih (by omega) fun q hq => hslots q (List.mem_append_left _ hq)
    have hslot : IsReadSlot cfg p.1 p.2 := hslots p (by simp)
    have hstart := hat (by omega)
    rw [List.flatMap_append, List.flatMap_singleton, Block.ticks_append]
    exact ⟨hread.ticks_slot hstart hc hslot, fun hmore => hstart.ticks_next hc hslot (by omega)⟩

/-- The last slot ends the command and leaves its duration in RDUR. -/
theorem ticks_readByte_end (hc : cfg.ok = true) (b₀ : Block) (hlen : slots.length = 8)
    (hslots : ∀ p ∈ slots, IsReadSlot cfg p.1 p.2) (hp : slots[7]? = some p) :
    ((acceptEffect .readByte cfg b₀).ticks cfg (slots.flatMap Prod.snd)).busy = false
    ∧ ((acceptEffect .readByte cfg b₀).ticks cfg (slots.flatMap Prod.snd)).rdur = measured p.1 := by
  have hsplit : slots = slots.take 7 ++ [p] :=
    calc slots = slots.take (7 + 1) := (List.take_of_length_le hlen.le).symm
      _ = slots.take 7 ++ [p] := by rw [List.take_add_one, hp]; rfl
  have hseven : (slots.take 7).length = 7 := List.length_take_of_le (by omega)
  obtain ⟨-, hat⟩ := ticks_readByte_slots (slots := slots.take 7) hc b₀ (by omega)
    fun q hq => hslots q (List.mem_of_mem_take hq)
  obtain ⟨hidle, hrdur⟩ := Block.AtReadByteSlot.ticks_last (hseven ▸ hat (by omega)) hc
    (hslots p (List.mem_of_getElem? hp))
  rw [hsplit, List.flatMap_append, List.flatMap_singleton, Block.ticks_append]
  exact ⟨(Block.busy_eq_false_iff _).2 hidle, hrdur⟩

end

/-- Settles O31: the slots before slot `i` leave the block at its first tick, and the bits measured stay. -/
theorem readByteMeasuresEightSlots : Obligations.ReadByteMeasuresEightSlots := by
  unfold Obligations.ReadByteMeasuresEightSlots
  intro s slots hready hlen hslots
  obtain ⟨hc, -, -⟩ := s.ready_iff.1 hready
  refine ⟨_, exec_of_ready .readByte hready, fun i p k hi hk => ?_, ?_⟩
  · obtain ⟨hlt, -⟩ := List.getElem?_eq_some_iff.1 hi
    obtain ⟨-, hat⟩ := ticks_readByte_slots (slots := slots.take i) hc s.blk (by rw [List.length_take]; omega)
      fun q hq => hslots q (List.mem_of_mem_take hq)
    have hstart := hat (by rw [List.length_take]; omega)
    dsimp only
    rw [State.setBlk_blk, Block.ticks_append]
    exact Block.readSlot_waveform hc hstart.phase hstart.timer (hslots p (List.mem_of_getElem? hi)) hk
  · obtain ⟨hread, -⟩ := ticks_readByte_slots hc s.blk hlen.le hslots
    have hend (p : Nat × List Bool) := ticks_readByte_end (p := p) hc s.blk hlen hslots
    obtain ⟨hbusy, -⟩ := hend _ (List.getElem?_eq_getElem (by omega))
    exact ⟨hbusy, hread.bits, fun p hp => (congrArg BitVec.toNat (hend p hp).2).trans (measured_toNat p.1),
      hread.presence, hread.pcnt, hread.pullupEn, hread.errBusy, hread.errCmd⟩

/-- Settles O33: acceptance clears DATA before anything reads it (R144). -/
theorem readResultForgetsData : Obligations.ReadResultForgetsData := by
  unfold Obligations.ReadResultForgetsData
  intro s v i hready hi
  have hready' : (s.setBlk { s.blk with data := v }).ready = true := hready
  rw [exec_of_ready i hready', exec_of_ready i hready]
  obtain rfl | rfl := hi
  · rw [acceptEffect_readBit, acceptEffect_readBit]; rfl
  · rw [acceptEffect_readByte, acceptEffect_readByte]; rfl

/-! ### The round trip of R205 -/

/-- The read slot with which the fixture answers a recorded bit: its duration and its levels. -/
def loopbackSlot (cfg : Params) (bit : Bool) : Nat × List Bool :=
  (if bit then 0 else 30, loopbackAnswers cfg bit)

/-- The fixture's answers to a READ_BYTE when it has recorded the bits of `v`. -/
def loopbackSlots (cfg : Params) (v : Byte) : List (Nat × List Bool) :=
  (List.range 8).map fun j => loopbackSlot cfg (v.getLsbD j)

theorem loopbackSlots_flatMap (cfg : Params) (v : Byte) :
    (loopbackSlots cfg v).flatMap Prod.snd = (List.range 8).flatMap fun j => loopbackAnswers cfg (v.getLsbD j) := rfl

theorem loopbackSlots_getElem? (cfg : Params) (v : Byte) {j : Nat} (hj : j < 8) :
    (loopbackSlots cfg v)[j]? = some (loopbackSlot cfg (v.getLsbD j)) := by
  rw [loopbackSlots, List.getElem?_map, List.getElem?_range hj]
  rfl

section
variable {cfg : Params} (hcfg : cfg = { Params.default with rdurTime := cfg.rdurTime })
include hcfg

/-- At tick 30 of a write slot the line is low for 0 and released for 1: 6 ≤ 29 < 61. -/
theorem loopbackRecords_eq (hc : cfg.ok = true) (b : Block) {j : Nat} (hj : j < 8) :
    loopbackRecords cfg (acceptEffect .writeByte cfg b) j = b.data.getLsbD j := by
  have h1 : cfg.tW1l = 6 := congrArg Params.tW1l hcfg
  have h0 : cfg.tW0l = 61 := congrArg Params.tW0l hcfg
  have hslot : cfg.tSlot = 60 := congrArg Params.tSlot hcfg
  have hk : 29 < writeSlotTicks cfg (b.data.getLsbD j) := by
    rw [writeSlotTicks_eq, writeLow, h1, h0, hslot]
    split <;> omega
  obtain ⟨-, hdrive⟩ := writeByte_waveform hc hj hk (es := List.replicate _ true) List.length_replicate
  rw [loopbackRecords, acceptEffect_data _ _ (.inr (.inr rfl)), Block.line, hdrive, writeLow, h1, h0]
  cases b.data.getLsbD j <;> rfl

/-- The answer's duration classifies as the recorded bit: 0 < T_RTH ≤ 30 (R177). -/
theorem classify_loopbackSlot (bit : Bool) : classify cfg (loopbackSlot cfg bit).1 = bit := by
  have hrth : cfg.tRth = 15 := congrArg Params.tRth hcfg
  cases bit <;> simp [loopbackSlot, classify, hrth]

/-- The fixture's answer is a read slot of the duration that `loopbackSlot` names. -/
theorem loopbackSlot_isReadSlot (bit : Bool) : IsReadSlot cfg (loopbackSlot cfg bit).1 (loopbackSlot cfg bit).2 := by
  have hrdl : cfg.tRdl = 2 := congrArg Params.tRdl hcfg
  refine ⟨[true, true], List.replicate (readPad cfg bit (loopbackSlot cfg bit).1) true, hrdl.symm, ?_, ?_⟩
  · rw [List.length_replicate, classify_loopbackSlot hcfg]
  · cases bit <;> rfl

/-- A READ_BYTE against the fixture's answers for the bits of `v` leaves `v` in DATA. -/
theorem ticks_readByte_loopback (hc : cfg.ok = true) (b : Block) (v : Byte) :
    ((acceptEffect .readByte cfg b).ticks cfg ((loopbackSlots cfg v).flatMap Prod.snd)).busy = false
    ∧ ((acceptEffect .readByte cfg b).ticks cfg ((loopbackSlots cfg v).flatMap Prod.snd)).data = v := by
  have hslots : ∀ p ∈ loopbackSlots cfg v, IsReadSlot cfg p.1 p.2 := by
    intro p hp
    obtain ⟨j, -, rfl⟩ := List.mem_map.1 hp
    exact loopbackSlot_isReadSlot hcfg _
  have hlen : (loopbackSlots cfg v).length = 8 := rfl
  obtain ⟨hread, -⟩ := ticks_readByte_slots hc b hlen.le hslots
  obtain ⟨hbusy, -⟩ := ticks_readByte_end hc b hlen hslots (loopbackSlots_getElem? cfg v (Nat.lt_succ_self 7))
  refine ⟨hbusy, BitVec.eq_of_getLsbD_eq fun j hj => ?_⟩
  rw [hread.bits j _ (loopbackSlots_getElem? cfg v hj), classify_loopbackSlot hcfg]

end

/-- Settles O32: what the fixture records is DATA, and its answers are eight read slots that measure it. -/
theorem loopbackRoundTrip : Obligations.LoopbackRoundTrip := by
  unfold Obligations.LoopbackRoundTrip
  intro s hready hcfg
  obtain ⟨hc, hr, -⟩ := s.ready_iff.1 hready
  refine ⟨_, exec_of_ready .writeByte hready, ?_⟩
  intro sent answers
  have hsent : sent.busy = false := ticks_writeByte_busy hc List.length_replicate
  have hanswers : answers = (loopbackSlots s.cfg s.blk.data).flatMap Prod.snd := by
    rw [loopbackSlots_flatMap]
    exact List.flatMap_congr fun j hj =>
      congrArg (loopbackAnswers s.cfg) (loopbackRecords_eq hcfg hc s.blk (List.mem_range.1 hj))
  have hready' : ((s.setBlk (acceptEffect .writeByte s.cfg s.blk)).setBlk sent).ready = true :=
    (State.ready_iff _).2 ⟨hc, hr, (Block.busy_eq_false_iff _).1 hsent⟩
  refine ⟨_, exec_of_ready .readByte hready', ?_⟩
  rw [hanswers]
  exact ticks_readByte_loopback hcfg hc sent s.blk.data

end Sys2Proof.Machine
end

section
/-! RESET from its acceptance to its end: the reset pulse and the presence window (43_reset_presence.md R220 to
R225). -/

namespace Sys2Proof.Machine

section
variable {cfg : Params} {b : Block} {es : List Bool}

/-! ### The presence window -/

/-- A tick of the window counts a low line, as `List.count` does (R221). -/
theorem Block.countWith_add_count (b : Block) (e : Bool) (es : List Bool) :
    b.countWith e + BitVec.ofNat 9 (es.count false) = b.cnt + BitVec.ofNat 9 ((e :: es).count false) := by
  cases e
  · rw [List.count_cons_self, Nat.add_comm, BitVec.ofNat_add, ← BitVec.add_assoc]
    rfl
  · simp [Block.countWith]

theorem Block.countWith_eq_add_count_singleton (b : Block) (e : Bool) :
    b.countWith e = b.cnt + BitVec.ofNat 9 ([e].count false) := by
  simpa using b.countWith_add_count e []

/-- Fewer ticks than are left of the window take that many off `tmr`, add the low ones to `cnt` and do nothing else. -/
theorem Block.ticks_rstSamp_inside (hp : b.ph = .rstSamp) (hlen : es.length < b.tmr.toNat) :
    b.ticks cfg es
      = { b with tmr := b.tmr - BitVec.ofNat 10 es.length, cnt := b.cnt + BitVec.ofNat 9 (es.count false) } := by
  induction es generalizing b with
  | nil => simp
  | cons e es ih =>
    rw [List.length_cons] at hlen
    have hlast : b.tmr ≠ 1#10 := by bv_omega
    have hd : (b.tmr - 1#10).toNat = b.tmr.toNat - 1 := by bv_omega
    have htmr : b.tmr - 1#10 - BitVec.ofNat 10 es.length = b.tmr - BitVec.ofNat 10 (es.length + 1) := by bv_omega
    rw [Block.ticks_cons, Block.tick_rstSamp hp, if_neg hlast,
      ih (b := { b.countDown with cnt := b.countWith e }) hp (by simp only [Block.countDown_tmr]; omega)]
    simp only [Block.countDown, htmr, List.length_cons, ← Block.countWith_add_count]

/-- As many ticks as are left of the window end the command: PCNT is the count with all the low ticks among them, and
PRESENCE its comparison with P_MIN and P_MAX (R222). -/
theorem Block.ticks_rstSamp_all (hp : b.ph = .rstSamp) (h1 : 1 ≤ b.tmr.toNat) (hlen : es.length = b.tmr.toNat) :
    ∃ n c, b.ticks cfg es
      = { b with ph := .idle, tmr := n, cnt := c,
                 presence := presenceOf cfg (b.cnt + BitVec.ofNat 9 (es.count false)).toNat,
                 pcnt := b.cnt + BitVec.ofNat 9 (es.count false) } := by
  obtain rfl | ⟨fs, e, rfl⟩ := List.eq_nil_or_concat es
  · rw [List.length_nil] at hlen
    omega
  · rw [List.concat_eq_append, List.length_append, List.length_singleton] at hlen
    have hlast : b.tmr - BitVec.ofNat 10 fs.length = 1#10 := by bv_omega
    rw [List.concat_eq_append, Block.ticks_append, Block.ticks_rstSamp_inside hp (by omega), hlast,
      Block.ticks_cons, Block.ticks_nil, Block.tick_rstSamp (by exact hp), if_pos rfl,
      Block.countWith_eq_add_count_singleton, List.count_append, BitVec.ofNat_add, ← BitVec.add_assoc]
    exact ⟨_, _, rfl⟩

/-! ### The whole command -/

/-- The block at the first tick of the reset pulse. -/
structure Block.AtReset (cfg : Params) (b : Block) : Prop where
  phase : b.ph = .rstLow
  timer : b.tmr.toNat = cfg.tRstl

theorem acceptEffect_reset_atReset (hc : cfg.ok = true) (b : Block) : (acceptEffect .reset cfg b).AtReset cfg := by
  obtain ⟨-, -, ⟨hfit, -⟩, -⟩ := (Params.ok_iff cfg).1 hc
  exact ⟨rfl, timer_toNat hfit⟩

/-- The block at the first tick of the presence window (R220). -/
def Block.openWindow (cfg : Params) (b : Block) : Block :=
  { b.enter .rstSamp cfg.tPdw with cnt := 0#9 }

theorem Block.openWindow_tmr (hc : cfg.ok = true) (b : Block) : (b.openWindow cfg).tmr.toNat = cfg.tPdw := by
  obtain ⟨-, -, ⟨-, hfit, -⟩, -⟩ := (Params.ok_iff cfg).1 hc
  exact timer_toNat hfit

/-- The ticks of the pulse take RESET to the first tick of the window. -/
theorem Block.AtReset.ticks_pulse (h : b.AtReset cfg) (hc : cfg.ok = true) (hlen : es.length = cfg.tRstl) :
    b.ticks cfg es = b.openWindow cfg := by
  obtain ⟨⟨h1, -⟩, -⟩ := (Params.ok_iff cfg).1 hc
  obtain ⟨e, hlast⟩ := Block.ticks_lastTick cfg es (by simp [h.phase, Phase.countsDown]) (h.timer ▸ h1)
    (hlen.trans h.timer.symm)
  rw [hlast, Block.tick_rstLow (b := { b with tmr := 1#10 }) h.phase, if_pos rfl]
  rfl

/-- From the end of the pulse on, RESET is the window from its first tick. -/
theorem Block.AtReset.ticks_past_pulse (h : b.AtReset cfg) (hc : cfg.ok = true) (hlen : cfg.tRstl ≤ es.length) :
    b.ticks cfg es = (b.openWindow cfg).ticks cfg (es.drop cfg.tRstl) := by
  rw [← h.ticks_pulse hc (List.length_take_of_le hlen), ← Block.ticks_append, List.take_append_drop]

/-- Inside RESET the phase is RST_LOW for T_RSTL ticks and then RST_SAMP, and but for the timer and the count nothing
else differs from the command's start. -/
theorem Block.AtReset.ticks_inside (h : b.AtReset cfg) (hc : cfg.ok = true)
    (hlen : es.length < cfg.tRstl + cfg.tPdw) :
    ∃ n c, b.ticks cfg es
      = { b with ph := if es.length < cfg.tRstl then .rstLow else .rstSamp, tmr := n, cnt := c } := by
  by_cases hpulse : es.length < cfg.tRstl
  · rw [if_pos hpulse, ← h.phase]
    exact ⟨_, _, Block.ticks_countDown cfg es (by simp [h.phase, Phase.countsDown]) (h.timer ▸ hpulse)⟩
  · rw [if_neg hpulse, h.ticks_past_pulse hc (Nat.le_of_not_lt hpulse)]
    exact ⟨_, _, Block.ticks_rstSamp_inside rfl (by rw [Block.openWindow_tmr hc, List.length_drop]; omega)⟩

/-- R225 after `k` ticks of RESET: busy, driving low in the pulse alone, and with the old results (R223). -/
theorem Block.AtReset.waveform {k : Nat} (h : b.AtReset cfg) (hc : cfg.ok = true) (hlen : es.length = k)
    (hk : k < cfg.tRstl + cfg.tPdw) :
    (b.ticks cfg es).busy = true ∧ (b.ticks cfg es).driveLow = decide (k < cfg.tRstl)
    ∧ (b.ticks cfg es).presence = b.presence ∧ (b.ticks cfg es).pcnt = b.pcnt := by
  subst hlen
  obtain ⟨n, c, heq⟩ := h.ticks_inside hc hk
  rw [heq]
  by_cases hpulse : es.length < cfg.tRstl <;> simp [Block.driveLow, hpulse]

/-- The last tick of RESET ends it with the window's low ticks in PCNT and their verdict in PRESENCE (R221, R222), and
nothing but the timer and the count differs from its start otherwise. -/
theorem Block.AtReset.ticks_all (h : b.AtReset cfg) (hc : cfg.ok = true)
    (hlen : es.length = cfg.tRstl + cfg.tPdw) :
    ∃ n c, b.ticks cfg es
      = { b with ph := .idle, tmr := n, cnt := c,
                 presence := presenceOf cfg (BitVec.ofNat 9 ((es.drop cfg.tRstl).count false)).toNat,
                 pcnt := BitVec.ofNat 9 ((es.drop cfg.tRstl).count false) } := by
  obtain ⟨⟨-, h1, -⟩, -⟩ := (Params.ok_iff cfg).1 hc
  obtain ⟨n, c, heq⟩ := Block.ticks_rstSamp_all (cfg := cfg) (b := b.openWindow cfg) (es := es.drop cfg.tRstl) rfl
    (by rwa [Block.openWindow_tmr hc]) (by rw [Block.openWindow_tmr hc, List.length_drop]; omega)
  refine ⟨n, c, ?_⟩
  rw [h.ticks_past_pulse hc (by omega), heq, show (b.openWindow cfg).cnt = 0#9 from rfl, BitVec.zero_add]
  rfl

/-- The low ticks of a whole window fit in CNT_W bits (R9). -/
theorem windowCount_toNat (hc : cfg.ok = true) (hlen : es.length = cfg.tRstl + cfg.tPdw) :
    (BitVec.ofNat 9 ((es.drop cfg.tRstl).count false)).toNat = (es.drop cfg.tRstl).count false := by
  obtain ⟨-, hfit, -⟩ := (Params.ok_iff cfg).1 hc
  have hcount : (es.drop cfg.tRstl).count false ≤ (es.drop cfg.tRstl).length := List.count_le_length
  rw [List.length_drop] at hcount
  rw [BitVec.toNat_ofNat, Nat.mod_eq_of_lt (by omega)]

end

/-- Settles O27: the pulse and the window run one after the other, the window's count is that of its low ticks, and only
the last tick writes it to PCNT and its verdict to PRESENCE. -/
theorem resetMeasuresPresence : Obligations.ResetMeasuresPresence := by
  unfold Obligations.ResetMeasuresPresence
  intro s envs hready hlen
  obtain ⟨hc, -, -⟩ := s.ready_iff.1 hready
  have h := acceptEffect_reset_atReset hc s.blk
  obtain ⟨n, c, hend⟩ := h.ticks_all hc hlen
  refine ⟨_, exec_of_ready .reset hready, fun k hk => ?_, ?_⟩
  · exact h.waveform hc (List.length_take_of_le hk.le) (hlen ▸ hk)
  · dsimp only
    rw [State.setBlk_blk, hend, windowCount_toNat hc hlen]
    exact ⟨rfl, rfl, rfl, rfl, rfl, rfl, rfl, rfl⟩

end Sys2Proof.Machine
end

section
/-! The error flags over one step (60_exceptions.md R271, R272, R276, R278): who raises, clears and keeps them. -/

namespace Sys2Proof.Machine

section
variable {s t : State}

/-- What a step outside reset can do to the error flags: keep both, raise one (R271, R272), clear them by a STATUS write
(R278), or be the rise of `rst`. -/
theorem step_flags (hr : s.rst = false) (h : step s = .next t) :
    (t.blk.errCmd = s.blk.errCmd ∧ t.blk.errBusy = s.blk.errBusy)
    ∨ (∃ a v rest, s.inputs = .write 8 a v :: rest ∧ (a = regCmd ∨ a = regData ∨ a = regConfig)
        ∧ s.blk.busy = true ∧ t.blk = s.blk.raise .busy)
    ∨ (∃ v rest why, s.inputs = .write 8 regCmd v :: rest ∧ s.blk.busy = false ∧ decode v = .illegal why
        ∧ t.blk = s.blk.raise .cmd)
    ∨ (∃ v rest, s.inputs = .write 8 regStatus v :: rest ∧ t.blk = s.blk.clearErrors v)
    ∨ ∃ rest, s.inputs = .rst true :: rest := by
  obtain ⟨-, e, heq⟩ | ⟨-, heq⟩ | ⟨a, v, rest, hi, hwrite⟩ | ⟨rest, hi, -⟩ | ⟨rest, -, heq⟩ := step_blk hr h
  · obtain ⟨hbusy, hcmd, -⟩ := Block.tick_frame s.cfg e s.blk
    exact .inl (heq ▸ ⟨hcmd, hbusy⟩)
  · exact .inl (by simp [heq])
  · obtain ⟨ha, hb, heq⟩ | ⟨-, -, i, -, heq⟩ | ⟨rfl, hb, why, hd, heq⟩ | ⟨-, -, heq⟩ | ⟨rfl, heq⟩ | ⟨-, -, heq⟩
      | ⟨-, heq⟩ := hwrite
    · exact .inr (.inl ⟨a, v, rest, hi, ha, hb, heq⟩)
    · exact .inl (by simp [heq, acceptEffect_frame])
    · exact .inr (.inr (.inl ⟨v, rest, why, hi, hb, hd, heq⟩))
    · exact .inl (by simp [heq])
    · exact .inr (.inr (.inr (.inl ⟨v, rest, hi, heq⟩)))
    · exact .inl (by simp [heq])
    · exact .inl (by simp [heq])
  · exact .inr (.inr (.inr (.inr ⟨rest, hi⟩)))
  · exact .inl (by simp [heq])

/-- Without a host write and without the rise of `rst` both flags are kept. -/
theorem step_flags_kept (hr : s.rst = false) (h : step s = .next t)
    (hwrite : ∀ a v rest, s.inputs ≠ .write 8 a v :: rest) (hrst : ∀ rest, s.inputs ≠ .rst true :: rest) :
    t.blk.errCmd = s.blk.errCmd ∧ t.blk.errBusy = s.blk.errBusy := by
  obtain hkept | ⟨a, v, rest, hi, -⟩ | ⟨v, rest, why, hi, -⟩ | ⟨v, rest, hi, -⟩ | ⟨rest, hi⟩ := step_flags hr h
  · exact hkept
  · exact absurd hi (hwrite a v rest)
  · exact absurd hi (hwrite regCmd v rest)
  · exact absurd hi (hwrite regStatus v rest)
  · exact absurd hi (hrst rest)

section
variable {a : Addr} {v : Byte} {rest : List Input}

/-- A step that answers next on a write is the write. -/
theorem hostWrite_of_step (h : step s = .next t) (hi : s.inputs = .write 8 a v :: rest) :
    hostWrite a v (s.setInputs rest) = .next t := by
  obtain ⟨hc, -⟩ := step_cases h
  exact (step_of_write hc hi).symm.trans h

theorem step_blk_of_write_busy (hr : s.rst = false) (h : step s = .next t) (hi : s.inputs = .write 8 a v :: rest)
    (ha : a = regCmd ∨ a = regData ∨ a = regConfig) (hb : s.blk.busy = true) : t.blk = s.blk.raise .busy := by
  obtain ⟨hc, -⟩ := step_cases h
  cases (hostWrite_of_step h hi).symm.trans (hostWrite_of_busy (s := s.setInputs rest) ha hc hr hb)
  rfl

theorem step_blk_of_illegal {why : Illegal} (hr : s.rst = false) (h : step s = .next t)
    (hi : s.inputs = .write 8 regCmd v :: rest) (hb : s.blk.busy = false) (hd : decode v = .illegal why) :
    t.blk = s.blk.raise .cmd := by
  obtain ⟨hc, -⟩ := step_cases h
  have hw := (hostWrite_cmd_of_illegal hd).symm.trans (hostWrite_of_step h hi)
  cases hw.symm.trans (guardedWrite_of_idle (s := s.setInputs rest) hc hr hb)
  rfl

theorem step_blk_of_command {i : Instr} (hr : s.rst = false) (h : step s = .next t)
    (hi : s.inputs = .write 8 regCmd v :: rest) (hb : s.blk.busy = false) (hd : decode v = .command i) :
    t.blk = acceptEffect i s.cfg s.blk := by
  obtain ⟨hc, -⟩ := step_cases h
  have hready : (s.setInputs rest).ready = true :=
    (State.ready_iff _).2 ⟨hc, hr, s.blk.busy_eq_false_iff.1 hb⟩
  cases h.symm.trans ((step_of_command hc hi hd).trans (exec_of_ready i hready))
  rfl

/-- A write that is neither to CMD nor rejected raises nothing: it may only clear flags, at STATUS. -/
theorem step_flags_of_accepted_write (hr : s.rst = false) (h : step s = .next t)
    (hi : s.inputs = .write 8 a v :: rest) (ha : a ≠ regCmd) (hb : a = regData ∨ a = regConfig → s.blk.busy = false) :
    (t.blk.errCmd = true → s.blk.errCmd = true) ∧ (t.blk.errBusy = true → s.blk.errBusy = true) := by
  obtain ⟨hcmd, hbusy⟩ | ⟨a', v', rest', hi', ha', hb', -⟩ | ⟨v', rest', why, hi', -⟩ | ⟨v', rest', -, heq⟩
    | ⟨rest', hi'⟩ := step_flags hr h
  · exact ⟨hcmd.symm.trans, hbusy.symm.trans⟩
  · cases hi.symm.trans hi'
    exact absurd (hb'.symm.trans (hb (ha'.resolve_left ha))) (by decide)
  · cases hi.symm.trans hi'
    exact absurd rfl ha
  · rw [heq]
    exact ⟨Bool.and_elim_left, Bool.and_elim_left⟩
  · cases hi.symm.trans hi'

end

end

/-- Settles O14, clause by clause: the write rejected while busy, the illegal and the legal CMD byte on an idle block, the
other writes, and the events that write nothing. -/
theorem oneErrorPerAccess : Obligations.OneErrorPerAccess := by
  unfold Obligations.OneErrorPerAccess
  intro s t hr h
  refine ⟨fun a v rest hi ha hb => ?rejected, fun v rest why hi hb hd => ?illegal, fun v rest i hi hb hd => ?legal,
    fun a v rest => step_flags_of_accepted_write hr h, fun rest hi => ?noWrite⟩
  case rejected => rw [step_blk_of_write_busy hr h hi ha hb]; exact ⟨rfl, rfl⟩
  case illegal => rw [step_blk_of_illegal hr h hi hb hd]; exact ⟨rfl, rfl⟩
  case legal =>
    obtain ⟨hbusy, hcmd, -⟩ := acceptEffect_frame i s.cfg s.blk
    rw [step_blk_of_command hr h hi hb hd]
    exact ⟨hcmd, hbusy⟩
  case noWrite =>
    obtain hi | ⟨e, hi⟩ | ⟨width, a, hi⟩ := hi <;> exact step_flags_kept hr h (by simp [hi]) (by simp [hi])

/-- Settles O15: of the ways a step treats the flags only the STATUS write clears one, and each by its own bit. -/
theorem errorFlagsAreSticky : Obligations.ErrorFlagsAreSticky := by
  unfold Obligations.ErrorFlagsAreSticky
  intro s t hr h hrst
  obtain ⟨hcmd, hbusy⟩ | ⟨a, v, rest, -, -, -, heq⟩ | ⟨v, rest, why, -, -, -, heq⟩ | ⟨v, rest, hi, heq⟩
    | ⟨rest, hi⟩ := step_flags hr h
  · exact ⟨fun h1 => .inl (hcmd.trans h1), fun h1 => .inl (hbusy.trans h1)⟩
  · rw [heq]
    exact ⟨.inl, fun _ => .inl rfl⟩
  · rw [heq]
    exact ⟨fun _ => .inl rfl, .inl⟩
  · rw [heq]
    refine ⟨fun h1 => ?_, fun h1 => ?_⟩
    · cases hv : v.getLsbD 5 with
      | false => exact .inl (by rw [Block.clearErrors_errCmd, h1, hv]; rfl)
      | true => exact .inr ⟨v, rest, hi, hv⟩
    · cases hv : v.getLsbD 4 with
      | false => exact .inl (by rw [Block.clearErrors_errBusy, h1, hv]; rfl)
      | true => exact .inr ⟨v, rest, hi, hv⟩
  · exact absurd hi (hrst rest)

end Sys2Proof.Machine
end

section
/-! What a running command shows of the results before it (70_reset_and_hazards.md R306, 20_memory.md R77,
40_sequencer.md R149): PRESENCE, PCNT and RDUR over a run of ticks after which the block is still busy. -/

namespace Sys2Proof.Machine

/-! ### Fields a run of ticks keeps -/

section
variable {cfg : Params}

/-- A busy block was busy one tick earlier: a tick never starts a command (R147). -/
theorem Block.busy_of_tick_busy {e : Bool} {b : Block} (h : (b.tick cfg e).busy = true) : b.busy = true :=
  b.busy_eq_true_iff.2 fun hidle =>
    (Block.busy_eq_true_iff _).1 h (by rw [Block.tick_idle hidle, hidle])

/-- A field that a tick keeps whenever it ends in a `P`-block, which then it also started in, is kept by every run of
ticks that ends in a `P`-block. -/
theorem Block.ticks_keep {α : Type} {P : Block → Prop} {field : Block → α}
    (htick : ∀ e b, P (Block.tick cfg e b) → P b ∧ field (b.tick cfg e) = field b) (es : List Bool) {b : Block}
    (hend : P (b.ticks cfg es)) : P b ∧ field (b.ticks cfg es) = field b := by
  induction es generalizing b with
  | nil => exact ⟨hend, rfl⟩
  | cons e es ih =>
    obtain ⟨hnext, hrun⟩ := ih hend
    obtain ⟨hstart, hfirst⟩ := htick e b hnext
    exact ⟨hstart, hrun.trans hfirst⟩

/-- While a command runs, PRESENCE and PCNT are those from before it: the tick that writes them ends the command
(R149). -/
theorem Block.ticks_presence_pcnt_of_busy (es : List Bool) {b : Block} (h : (b.ticks cfg es).busy = true) :
    (b.ticks cfg es).presence = b.presence ∧ (b.ticks cfg es).pcnt = b.pcnt := by
  have htick : ∀ e b, (Block.tick cfg e b).busy = true →
      b.busy = true ∧ ((b.tick cfg e).presence, (b.tick cfg e).pcnt) = (b.presence, b.pcnt) := by
    intro e b hbusy
    obtain ⟨-, -, -, -, ⟨hpresence, hpcnt⟩ | ⟨-, -, hidle⟩⟩ := Block.tick_frame cfg e b
    · exact ⟨Block.busy_of_tick_busy hbusy, by rw [hpresence, hpcnt]⟩
    · exact absurd hidle ((Block.busy_eq_true_iff _).1 hbusy)
  obtain ⟨-, hkept⟩ :=
    Block.ticks_keep (P := fun b => b.busy = true) (field := fun b => (b.presence, b.pcnt)) htick es h
  exact Prod.mk.inj hkept

/-- Under the reading of R149 and R306, RDUR too is that from before the command. -/
theorem Block.ticks_rdur_of_atCommandEnd (hr : cfg.rdurTime = .atCommandEnd) (es : List Bool) {b : Block}
    (h : (b.ticks cfg es).busy = true) : (b.ticks cfg es).rdur = b.rdur := by
  have htick : ∀ e b, (Block.tick cfg e b).busy = true → b.busy = true ∧ (b.tick cfg e).rdur = b.rdur := by
    intro e b hbusy
    refine ⟨Block.busy_of_tick_busy hbusy, (Block.tick_rdur_of_atCommandEnd e b hr).resolve_right ?_⟩
    rintro ⟨-, hidle, -⟩
    exact (Block.busy_eq_true_iff _).1 hbusy hidle
  exact (Block.ticks_keep (P := fun b => b.busy = true) htick es h).2

/-! ### The first measurement of a read command -/

/-- The block is busy, in slot 0, and not past that slot's measurement. -/
def Block.BeforeFirstResult (b : Block) : Prop :=
  b.busy = true ∧ b.idx = 0#3 ∧ b.ph ≠ .rdPad

/-- The end of a slot leads to IDLE or to a slot with a higher index. -/
theorem Block.not_beforeFirstResult_finishSlot (b : Block) : ¬ (b.finishSlot cfg).BeforeFirstResult := by
  rintro ⟨hbusy, hidx, -⟩
  obtain ⟨-, hlt, heq⟩ | ⟨-, heq⟩ := Block.finishSlot_cases cfg b
  · obtain ⟨-, -, -, -, -, -, -, -, hnext, -⟩ := Block.startSlot_frame cfg { b with idx := b.idx + 1#3 }
    rw [heq, hnext] at hidx
    bv_omega
  · simp [heq] at hbusy

theorem Block.not_beforeFirstResult_finishReadSlot (b : Block) : ¬ (b.finishReadSlot cfg).BeforeFirstResult :=
  b.not_beforeFirstResult_finishSlot

/-- A tick keeps the slot's index and RDUR, in a phase that is not the pad, or leaves the block past its first
result. -/
theorem Block.tick_keeps_or_past_firstResult (cfg : Params) (e : Bool) (b : Block) :
    (b.ph ≠ .rdPad ∧ (b.tick cfg e).idx = b.idx ∧ (b.tick cfg e).rdur = b.rdur)
    ∨ ¬ (b.tick cfg e).BeforeFirstResult := by
  cases hp : b.ph with
  | idle => left; simp [Block.tick_idle hp]
  | rstLow => left; rw [Block.tick_rstLow hp]; split <;> simp
  | rstSamp => left; rw [Block.tick_rstSamp hp]; split <;> simp
  | wrLow => left; rw [Block.tick_wrLow hp]; split <;> simp
  | wrHigh =>
    rw [Block.tick_wrHigh hp]
    split
    · exact .inr b.not_beforeFirstResult_finishSlot
    · left; simp
  | rdLow => left; rw [Block.tick_rdLow hp]; split <;> simp
  | rdMeas =>
    cases e with
    | false => left; simp [Block.tick_rdMeas_low hp]
    | true =>
      right
      rw [Block.tick_rdMeas_high hp]
      split
      · exact Block.not_beforeFirstResult_finishReadSlot _
      · exact fun ⟨_, _, hpad⟩ => hpad rfl
  | rdPad =>
    right
    rw [Block.tick_rdPad hp]
    split
    · exact b.not_beforeFirstResult_finishReadSlot
    · exact fun ⟨_, _, hpad⟩ => hpad hp

/-- Until the first measurement of a read command is over, RDUR is that from before it, under either time of log 22. -/
theorem Block.ticks_rdur_of_beforeFirstResult (es : List Bool) {b : Block} (h : (b.ticks cfg es).BeforeFirstResult) :
    (b.ticks cfg es).rdur = b.rdur := by
  have htick : ∀ e b, (Block.tick cfg e b).BeforeFirstResult → b.BeforeFirstResult ∧ (b.tick cfg e).rdur = b.rdur := by
    intro e b hafter
    obtain ⟨hpad, hidx, hrdur⟩ := (Block.tick_keeps_or_past_firstResult cfg e b).resolve_right (not_not_intro hafter)
    obtain ⟨hbusy, hzero, -⟩ := hafter
    exact ⟨⟨Block.busy_of_tick_busy hbusy, hidx.symm.trans hzero, hpad⟩, hrdur⟩
  exact (Block.ticks_keep htick es h).2

/-! ### Commands that read nothing -/

/-- A tick of a block that is in no read phase, and whose command is not READ_BYTE, leads into no read phase: the only
slots the framer starts are then write slots (R145, R146). -/
theorem Block.tick_reads_eq_false (e : Bool) {b : Block} (hreads : b.ph.reads = false)
    (hop : b.op ≠ Instr.readByte.opcode) : (b.tick cfg e).ph.reads = false := by
  cases hp : b.ph with
  | idle => rwa [Block.tick_idle hp]
  | rstLow => rw [Block.tick_rstLow hp]; split <;> simp [Phase.reads, hp]
  | rstSamp => rw [Block.tick_rstSamp hp]; split <;> simp [Phase.reads, hp]
  | wrLow => rw [Block.tick_wrLow hp]; split <;> simp [Phase.reads, hp]
  | wrHigh =>
    rw [Block.tick_wrHigh hp]
    split
    · obtain ⟨hbyte, -, heq⟩ | ⟨-, heq⟩ := Block.finishSlot_cases cfg b
      · have hwrites : Block.opWrites { b with idx := b.idx + 1#3 } = true := by
          have hwrite : b.op = Instr.writeByte.opcode := by simpa [Block.opIsByte, hop] using hbyte
          simp [Block.opWrites, hwrite]
        rw [heq, Block.startSlot_of_writes cfg hwrites]
        rfl
      · rw [heq]; rfl
    · simp [Phase.reads, hp]
  | rdLow | rdMeas | rdPad => simp [hp, Phase.reads] at hreads

/-- RDUR belongs to the read slots: outside their phases no tick writes it. -/
theorem Block.tick_rdur_of_not_reads (e : Bool) {b : Block} (hreads : b.ph.reads = false) :
    (b.tick cfg e).rdur = b.rdur := by
  obtain ⟨-, hmeas, hpad⟩ := b.ph.reads_eq_false_iff.1 hreads
  obtain ⟨-, -, hrdur⟩ | ⟨hp, -⟩ | ⟨hp, -⟩ := Block.tick_read_cases cfg e b
  · exact hrdur
  · exact absurd hp hmeas
  · exact absurd hp hpad

theorem Block.ticks_rdur_of_not_reads (es : List Bool) {b : Block} (hreads : b.ph.reads = false)
    (hop : b.op ≠ Instr.readByte.opcode) : (b.ticks cfg es).rdur = b.rdur := by
  induction es generalizing b with
  | nil => rfl
  | cons e es ih =>
    obtain ⟨-, -, hkept, -⟩ := Block.tick_frame cfg e b
    exact (ih (Block.tick_reads_eq_false e hreads hop) (hkept ▸ hop)).trans (Block.tick_rdur_of_not_reads e hreads)

/-- RESET and the write commands start outside the read phases (R144, R145). -/
theorem acceptEffect_not_reads {i : Instr} (hi : i ≠ .readBit ∧ i ≠ .readByte) (cfg : Params) (b : Block) :
    (acceptEffect i cfg b).ph.reads = false ∧ (acceptEffect i cfg b).op ≠ Instr.readByte.opcode := by
  obtain ⟨hbit, hbyte⟩ := hi
  cases i with
  | reset => exact ⟨rfl, (by decide : Instr.reset.opcode ≠ Instr.readByte.opcode)⟩
  | writeBit => exact ⟨rfl, (by decide : Instr.writeBit.opcode ≠ Instr.readByte.opcode)⟩
  | readBit => exact absurd rfl hbit
  | writeByte => exact ⟨rfl, (by decide : Instr.writeByte.opcode ≠ Instr.readByte.opcode)⟩
  | readByte => exact absurd rfl hbyte

end

/-! ### Registers -/

theorem Block.readReg_pcntLo (b : Block) (free : Byte) : b.readReg free regPcntLo = b.pcnt.extractLsb' 0 8 := rfl

theorem Block.readReg_pcntHi (b : Block) (free : Byte) : b.readReg free regPcntHi = zextBit (b.pcnt.getLsbD 8) := rfl

theorem Block.readReg_status_presence (b : Block) (free : Byte) :
    (b.readReg free regStatus).getLsbD 1 = b.presence :=
  b.status_getLsbD 1

/-- Settles O42: acceptance keeps the three results, and so do the ticks after it while the block is busy; for RDUR by
the case of log 22 or of the command. -/
theorem runningCommandShowsOldResults : Obligations.RunningCommandShowsOldResults := by
  unfold Obligations.RunningCommandShowsOldResults
  intro s i envs hs
  refine ⟨_, exec_of_ready i hs, fun hbusy free => ?_⟩
  obtain ⟨-, -, hpresence₀, hpcnt₀, hrdur₀, -⟩ := acceptEffect_frame i s.cfg s.blk
  obtain ⟨hpresence, hpcnt⟩ := Block.ticks_presence_pcnt_of_busy envs hbusy
  rw [State.setBlk_blk] at hbusy hpresence hpcnt ⊢
  rw [hpresence₀] at hpresence
  rw [hpcnt₀] at hpcnt
  refine ⟨?status, ?pcntLo, ?pcntHi, ?data, fun hcase => ?rdur⟩
  case status => rw [Block.readReg_status_presence, Block.readReg_status_presence, hpresence]
  case pcntLo => rw [Block.readReg_pcntLo, Block.readReg_pcntLo, hpcnt]
  case pcntHi => rw [Block.readReg_pcntHi, Block.readReg_pcntHi, hpcnt]
  case data => exact Block.readReg_data_of_busy _ free ((Block.busy_eq_true_iff _).1 hbusy)
  case rdur =>
    rw [Block.readReg_rdur, Block.readReg_rdur, ← hrdur₀]
    obtain hr | hi | ⟨hidx, hpad⟩ := hcase
    · exact Block.ticks_rdur_of_atCommandEnd hr envs hbusy
    · obtain ⟨hreads, hop⟩ := acceptEffect_not_reads hi s.cfg s.blk
      exact Block.ticks_rdur_of_not_reads envs hreads hop
    · exact Block.ticks_rdur_of_beforeFirstResult envs ⟨hbusy, hidx, hpad⟩

end Sys2Proof.Machine
end

section
/-! A host that respects the busy hazard and writes legal commands (70_reset_and_hazards.md R305, 30_encoding.md
R103). -/

namespace Sys2Proof.Machine

section
variable {b : Block} {width : Nat} {a : Addr} {v : Byte}

theorem Input.respectful_write_cmd (h : (Input.write width regCmd v).respectful b = true) :
    b.busy = false ∧ ∃ i, v = encode i := by
  obtain ⟨hidle, hlegal⟩ := Bool.and_eq_true_iff.1 (show (!b.busy && decide _) = true from h)
  obtain ⟨i, -, hv⟩ := List.mem_map.1 (of_decide_eq_true hlegal)
  exact ⟨Bool.eq_false_of_not_eq_true' hidle, i, hv.symm⟩

/-- Such a host writes the three guarded registers on an idle block only (R305). -/
theorem Input.idle_of_respectful (h : (Input.write width a v).respectful b = true)
    (ha : a = regCmd ∨ a = regData ∨ a = regConfig) : b.busy = false := by
  obtain rfl | rfl | rfl := ha
  · exact (Input.respectful_write_cmd h).1
  · exact Bool.eq_false_of_not_eq_true' h
  · exact Bool.eq_false_of_not_eq_true' h

/-- Such a host's CMD bytes all decode to commands (R103). -/
theorem Input.not_illegal_of_respectful (h : (Input.write width regCmd v).respectful b = true) (why : Illegal) :
    decode v ≠ .illegal why := by
  obtain ⟨-, i, rfl⟩ := Input.respectful_write_cmd h
  rw [decode_encode]
  exact Decoded.noConfusion

end

/-- The rise of `rst` sets the reset state at once, from any state (R300). -/
theorem step_of_rst_rise {s : State} {rest : List Input} (hc : s.cfg.ok = true) (hi : s.inputs = .rst true :: rest) :
    step s = .next { s with inputs := rest, rst := true, blk := Block.reset } :=
  step_of_input hc hi

/-- Settles O16: of the ways a step raises a flag, the write rejected while busy and the illegal CMD byte are not such a
host's. -/
theorem respectfulHostCausesNoError : Obligations.RespectfulHostCausesNoError := by
  unfold Obligations.RespectfulHostCausesNoError
  intro s t i rest hr hi hrespect h
  obtain ⟨hcmd, hbusy⟩ | ⟨a, v, rest', hi', ha, hb, -⟩ | ⟨v, rest', why, hi', -, hd, -⟩ | ⟨v, rest', -, heq⟩
    | ⟨rest', hi'⟩ := step_flags hr h
  · exact ⟨hbusy.symm.trans, hcmd.symm.trans⟩
  · cases hi.symm.trans hi'
    exact absurd (hb.symm.trans (Input.idle_of_respectful hrespect ha)) (by decide)
  · cases hi.symm.trans hi'
    exact absurd hd (Input.not_illegal_of_respectful hrespect why)
  · rw [heq]
    exact ⟨Bool.and_elim_left, Bool.and_elim_left⟩
  · obtain ⟨hc, -⟩ := step_cases h
    cases h.symm.trans (step_of_rst_rise hc hi')
    exact ⟨nofun, nofun⟩

end Sys2Proof.Machine
end

section
/-! The `rst` input (70_reset_and_hazards.md R300, R301): the reset state is set at once, held, and left by an
IDLE tick. -/

namespace Sys2Proof.Machine

section
variable {s : State}

/-- While `rst` is 1 a host write of any address is answered and does nothing. -/
theorem hostWrite_next_of_rst (hc : s.cfg.ok = true) (hr : s.rst = true) (a : Addr) (v : Byte) :
    hostWrite a v s = .next s := by
  obtain ⟨-, h⟩ | ⟨-, h⟩ | ⟨-, h⟩ | ⟨-, h⟩ | ⟨-, h⟩ := hostWrite_cases a v s <;> rw [h]
  · obtain ⟨i, -, hw⟩ | ⟨why, -, hw⟩ := writeCmd_cases v s <;> exact hw.trans (guardedWrite_of_rst hc hr)
  · exact guardedWrite_of_rst hc hr
  · exact if_pos hr
  · exact guardedWrite_of_rst hc hr

/-- While `rst` is 1 a host read gives the reset value, 0x00 at every address. -/
theorem hostRead_rdata_of_rst (hr : s.rst = true) (a : Addr) : (hostRead a s).rdata = 0x00#8 := by
  obtain ⟨-, -, -, -, hrdata⟩ := hostRead_frame a s
  rw [hrdata, State.liveBlock_of_rst hr, Block.reset_readReg]

/-- While `rst` is 1 a tick leaves the reset state. -/
theorem tickEvent_of_rst (hr : s.rst = true) (hb : s.blk = Block.reset) (e : Bool) : tickEvent e s = s := by
  rw [tickEvent, if_pos hr, State.liveBlock_of_rst hr, ← hb, State.setBlk_blk_self]

/-- The fall of `rst` leaves the block in its reset state, from where it goes on. -/
theorem rstEvent_false_of_reset (hr : s.rst = true) (hb : s.blk = Block.reset) :
    rstEvent false s = s.setRst false := by
  rw [rstEvent, if_neg Bool.false_ne_true, State.liveBlock_of_rst hr, ← hb]
  rfl

end

/-- Settles O19: while `rst` is held each kind of event finds the block in its reset state and leaves it there. -/
theorem rstAbortsAndHolds : Obligations.RstAbortsAndHolds := by
  unfold Obligations.RstAbortsAndHolds
  refine ⟨⟨rfl, rfl, rfl, rfl, Block.reset_readReg⟩, fun s rest hc hi => step_of_rst_rise hc hi,
    fun s rest hc hr hb => ⟨fun e hi => ?tick, fun a v hi => ?write, fun a hi => ?read, fun hi => ?fall⟩,
    fun cfg e => ⟨Block.tick_idle rfl, rfl⟩⟩
  case tick => exact (step_of_input hc hi).trans (congrArg _ (tickEvent_of_rst (s := s.setInputs rest) hr hb e))
  case write => exact (step_of_write hc hi).trans (hostWrite_next_of_rst (s := s.setInputs rest) hc hr a v)
  case read =>
    obtain ⟨hblk, -, hrst, -⟩ := hostRead_frame a (s.setInputs rest)
    exact ⟨_, step_of_input hc hi, hblk.trans hb, hrst.trans hr, hostRead_rdata_of_rst (s := s.setInputs rest) hr a⟩
  case fall => exact (step_of_input hc hi).trans (congrArg _ (rstEvent_false_of_reset (s := s.setInputs rest) hr hb))

end Sys2Proof.Machine
end

section
/-! The durations of the commands with R7's parameters (70_reset_and_hazards.md R313). -/

namespace Sys2Proof.Machine

theorem writeSlotTicks_default (x : Bool) : writeSlotTicks Params.default x = 62 - x.toNat := by
  cases x <;> decide

/-- The slots before slot `n` last 62 ticks each, less one for every 1 among the bits they send. -/
theorem writeSlotStart_default_add_ones (v : Byte) (n : Nat) :
    writeSlotStart Params.default v n + (List.range n).countP (fun i => v.getLsbD i) = 62 * n := by
  induction n with
  | zero => rfl
  | succ n ih =>
    have hones : (List.range (n + 1)).countP (fun i => v.getLsbD i)
        = (List.range n).countP (fun i => v.getLsbD i) + (v.getLsbD n).toNat := by
      rw [List.range_succ, List.countP_append, List.countP_singleton, Bool.toNat, Bool.cond_eq_ite]
    have hbit : (v.getLsbD n).toNat ≤ 1 := Bool.toNat_le _
    rw [hones, writeSlotStart_succ, writeSlotTicks_default]
    omega

theorem readSlotTicks_default (d : Nat) :
    readSlotTicks Params.default d = if d ≤ 14 then 59 else if d ≤ 51 then 54 else d + 3 := by
  simp only [readSlotTicks, readPad_classify, Params.default_tRdl, Params.default_tRth, Params.default_tRp1,
    Params.default_tRp0]
  split_ifs <;> omega

/-- Settles O36. -/
theorem commandDurations : Obligations.CommandDurations := by
  unfold Obligations.CommandDurations
  exact ⟨by decide, writeSlotTicks_default true, writeSlotTicks_default false,
    fun v => writeSlotStart_default_add_ones v 8, readSlotTicks_default⟩

end Sys2Proof.Machine
end
